-- ==== Sys2Proof/Config.lean ====
section
/-! DEFINITION. What identifies the ytstorage CORE (spec rule R2), the parameters of rule R8 as arguments of the model, the constants
of rule R7, and the opaque hash of rule R270. -/

namespace Sys2Proof

/-! ## Identity (R2) -/

/-- The identity a model carries (R2). R2 gives the hardware no vendor, part number, ISA name or string, extension list or version. -/
structure Identity where
  /-- The hardware's name. -/
  name : String
  /-- The document id of the one source. -/
  source : String
  /-- The revision the source prints, if any. -/
  revision : Option String
  /-- The revision by the requester's note. -/
  requesterRevision : String
  /-- The command set, in the spec's own naming. -/
  commandSet : String
  /-- How many commands the set has. -/
  commands : Nat
  deriving DecidableEq, Repr

/-- Which hardware this model is of (R2). -/
def identity : Identity :=
  { name := "ytstorage CORE"
    source := "YTS"
    revision := none
    requesterRevision := "v7"
    commandSet := "YTS-CORE/1"
    commands := 26 }

/-! ## The open parameters (R8) -/

/-- The parameters the source leaves open, each a named argument with the spec's default (R8, 93 U27). A machine's parameters
are fixed: `State.params` carries them and nothing writes it (notes/assumptions/1.md). -/
structure Params where
  /-- `XLEN`: width in bits of scalar operands, of `R0`, and of `FSIZE`, `BPF`, `UNUSED`, `TFRAMES`. -/
  xlen : Nat := 64
  /-- `DIM_BITS`: width in bits of `W`, `H`, `PSIZE`, `FPS`. -/
  dimBits : Nat := 16
  /-- `STR_MAX`: largest length in bytes of `CHECKSUM` and `FNAME` as registers. -/
  strMax : Nat := 255
  /-- `BUF_MAX`: largest length of `BB` in bits and of `YB` in bytes; `none` is unbounded. -/
  bufMax : Option Nat := none
  deriving DecidableEq, Repr

/-- Every parameter at its default (R8). -/
def Params.defaults : Params := {}

/-- The constraints of R8 on the parameters. -/
structure Params.Valid (cfg : Params) : Prop where
  xlenLeast : 32 ≤ cfg.xlen
  dimBitsLeast : 9 ≤ cfg.dimBits
  dimBitsMost : cfg.dimBits ≤ cfg.xlen
  strMaxLeast : 65 ≤ cfg.strMax
  bufMaxLeast : ∀ m, cfg.bufMax = some m → 844 ≤ m

end Sys2Proof

namespace Sys2Proof.Config

/-! ## Constants fixed by the source (R7) -/

/-- `CHANNEL_BITS` (R8, fixed at 8 by D19). -/
abbrev channelBits : Nat := 8

/-- `FULL`, the channel value of "full-intensity": `2^CHANNEL_BITS - 1` (R8). -/
abbrev full : Nat := 2 ^ channelBits - 1

/-- `HEADER_BITS` (R7). -/
abbrev headerBits : Nat := 844

/-- `TYPE_BITS` (R7). -/
abbrev typeBits : Nat := 4

/-- `CHECKSUM_BITS` (R7). -/
abbrev checksumBits : Nat := 512

/-- `CHECKSUM_CHARS` (R7). -/
abbrev checksumChars : Nat := 64

/-- `FILENAME_BITS` (R7). -/
abbrev filenameBits : Nat := 256

/-- `FILENAME_MAX` (R7). -/
abbrev filenameMax : Nat := 32

/-- `PSIZE_BITS`, the width of `pixel_size` in the header (R7). -/
abbrev psizeBits : Nat := 8

/-- `UNUSED_BITS`, the width of `unused_bytes` in the header (R7). -/
abbrev unusedBits : Nat := 32

/-- `TFRAMES_BITS`, the width of `total_frames` in the header (R7). -/
abbrev tframesBits : Nat := 32

/-- `THRESHOLD` on a channel value or a channel average (R7). -/
abbrev threshold : Nat := 128

/-- `HDR_REQUIRED`, the `requiredBits` argument that sizes the header frame (R7). -/
abbrev hdrRequired : Nat := 844

/-- `Hash`, the opaque hashing primitive of R270: a function from byte sequences to strings of 64 characters (`hash file k` is
character `k`), and nothing else is known of it. The CORE never calls it; the host's verdict does (R271). Free value, notes/assumptions/9.md. -/
opaque hash : List (BitVec 8) → Fin checksumChars → BitVec 8

end Sys2Proof.Config
end

