-- ==== Sys2Proof/Word.lean ====
section
/-! DEFINITION. The data units of the CORE (spec rules R11, R13). All integers are unsigned and all arithmetic is over the naturals
(R9, R10), so a scalar is a `Nat`; how many bits a register or an operand field has is a parameter of R8, which WellFormed.lean
checks for operands and `State.Sized` (Safety.lean) says of registers. -/

namespace Sys2Proof

/-- A byte: an integer `0..255` (R13). A string's character is a byte, and so is one colour channel (R25). -/
abbrev Byte := BitVec 8

/-- A bit sequence, first bit first: the source's `false` is 0 and `true` is 1 (R11). -/
abbrev Bits := List Bool

/-- A byte sequence; a string is one (R13). -/
abbrev Bytes := List Byte

end Sys2Proof
end

