-- ==== Sys2Proof/Machine/Bits.lean ====
section
/-! DEFINITION. BitCodec's pure functions (spec rules R12, R130, R132, R134, R137, R138) and the bit order they share:
most significant bit first everywhere (R65, R66). The command packets of Decode.lean are written with the same functions. -/

namespace Sys2Proof.Machine

/-- `n` bits of 0 (R11). -/
def zeros (n : Nat) : Bits := List.replicate n false

/-- `(value div 2^i) mod 2`: the bit of weight `2^i` (R130). -/
def bitAt (value i : Nat) : Bool := decide (value / 2 ^ i % 2 = 1)

/-- `dec_to_bin(value, width)`: exactly `width` bits, `b[i] = (value div 2^(width-1-i)) mod 2` (R130). It drops high bits
of a value that does not fit; the rule gives it no value there, and every caller tests `value < 2^width` first. -/
def decToBin (value : Nat) : Nat → Bits
  | 0 => []
  | width + 1 => bitAt value width :: decToBin value width

/-- `val(b)`, the first bit the most significant: the sum of `b[i] * 2^(len(b)-1-i)` (R12), by Horner's scheme. -/
def bitsVal (b : Bits) : Nat := b.foldl (fun acc x => 2 * acc + x.toNat) 0

/-- `byte_to_bits(v) = dec_to_bin(v, 8)` (R134). -/
def byteToBits (v : Byte) : Bits := decToBin v.toNat 8

/-- `bits_to_byte(b) = val(b)`, used on exactly 8 bits (R134). -/
def bitsToByte (b : Bits) : Byte := BitVec.ofNat 8 (bitsVal b)

/-- `bytes_to_bits(y)`: the bytes' bits in order, byte `k` at bits `8k .. 8k+7` (R134, R66). -/
def bytesToBits (y : Bytes) : Bits := y.flatMap byteToBits

/-- `pages_to_bytes(b)`: bits `8k .. 8k+7` become byte `k` (R137). A ragged tail has no byte; every caller tests
`len(b) mod 8 = 0` first. -/
def pagesToBytes : Bits → Bytes
  | b0 :: b1 :: b2 :: b3 :: b4 :: b5 :: b6 :: b7 :: rest =>
      bitsToByte [b0, b1, b2, b3, b4, b5, b6, b7] :: pagesToBytes rest
  | _ => []

/-- `bin_to_str(b)`: `pages_to_bytes(b)` without its 0x00 bytes, wherever they stand (R138, U9). -/
def binToStr (b : Bits) : Bytes := (pagesToBytes b).filter (fun c => c != 0)

/-- `b[i..j)`, the half-open slice of R11. -/
def slice (b : Bits) (i j : Nat) : Bits := (b.drop i).take (j - i)

end Sys2Proof.Machine
end

