-- ==== Sys2Proof/Syntax.lean ====
section
/-! DEFINITION. The 26 commands of spec rule R95, one constructor per row of spec/opcode_table.json.

A scalar operand is an `XLEN`-bit unsigned integer taken as it stands (R92): a mode, a block size or a field selector is that
number here, and it is the command's own rule that says which values it accepts. That the number fits its field is a check of
WellFormed.lean, because `XLEN` is a parameter (R8). -/

namespace Sys2Proof

/-- A command of the CORE with its operands, named as in R95. -/
inductive Instr where
  /-- `DEC2BIN value, width` (0x10, C2, R131). -/
  | dec2bin (value width : Nat)
  /-- `BIN2DEC` (0x11, C0, R133). -/
  | bin2dec
  /-- `BYTE2BITS v` (0x12, C1, R135). -/
  | byte2bits (v : Nat)
  /-- `BITS2BYTE` (0x13, C0, R136). -/
  | bits2byte
  /-- `PAGES2BYTES` (0x14, C0, R137). -/
  | pages2bytes
  /-- `BIN2STR` (0x15, C0, R139). -/
  | bin2str
  /-- `HDR.GEN` (0x20, C0, R152). -/
  | hdrGen
  /-- `HDR.PARSE` (0x21, C0, R155). -/
  | hdrParse
  /-- `RASTER.CAP mode, S` (0x30, C2, R177). -/
  | rasterCap (mode edge : Nat)
  /-- `RASTER.ENC mode, S` (0x31, C2, R178). -/
  | rasterEnc (mode edge : Nat)
  /-- `RASTER.DEC mode, S` (0x32, C2, R182). -/
  | rasterDec (mode edge : Nat)
  /-- `CHUNK.BPF` (0x40, C0, R202). -/
  | chunkBpf
  /-- `CHUNK.MAXBLK requiredBits` (0x41, C1, R205). -/
  | chunkMaxblk (requiredBits : Nat)
  /-- `CHUNK.DERIVE` (0x42, C0, R208). -/
  | chunkDerive
  /-- `PAGE.BUILD` (0x43, C0, R211). -/
  | pageBuild
  /-- `PAGE.UNPACK i` (0x44, C1, R213). -/
  | pageUnpack (i : Nat)
  /-- `SES.SET f, v` (0x50, C2, R231). -/
  | sesSet (f v : Nat)
  /-- `SES.SETS f` (0x51, C1, R232). -/
  | sesSets (f : Nat)
  /-- `SES.GET f` (0x52, C1, R233). -/
  | sesGet (f : Nat)
  /-- `SES.GETS f` (0x53, C1, R234). -/
  | sesGets (f : Nat)
  /-- `LD.BB n, bits` (0x54, CD with bits as units, R236). -/
  | ldBb (n : Nat) (bits : Bits)
  /-- `ST.BB` (0x55, C0, R237). -/
  | stBb
  /-- `LD.YB n, bytes` (0x56, CD with bytes as units, R238). -/
  | ldYb (n : Nat) (bytes : Bytes)
  /-- `ST.YB` (0x57, C0, R239). -/
  | stYb
  /-- `LD.PX w, h, pixels` (0x58, CP, R240). The data's length is not part of the format: R240 itself tests it. -/
  | ldPx (w h : Nat) (data : Bytes)
  /-- `ST.PX` (0x59, C0, R241). -/
  | stPx
  deriving DecidableEq, Repr

/-- Why a packet is no packet of any format of R92, though the spec gives no cause for it (notes/assumptions/4.md). -/
inductive Malformed where
  /-- Fewer than the 8 bits of `cmd` (R91). -/
  | noCommandWord
  /-- The packet ends inside a scalar operand field (R92). -/
  | operandMissing
  /-- Bits follow the last field of a format whose length `cmd` alone fixes: C0, C1, C2 (R91). -/
  | excessBits
  /-- A CD packet whose data is not the `n` units its length field says (R91, R92). -/
  | dataCount
  /-- A CP packet whose data is not a whole number of bytes (R92). -/
  | partialByte
  deriving DecidableEq, Repr

end Sys2Proof
end

