-- ==== Sys2Proof/Decode.lean ====
section
/-! DEFINITION. The command packets of spec rules R91, R92 and R95: the decoder, then the encoder.

A packet is the bit sequence of its fields in R92's order, every field most significant bit first (DEDUCED from R65, R91,
R92; notes/assumptions/3.md): 8 bits of `cmd`, then `XLEN` bits for each scalar operand or length field, then the data
units (one bit each for `LD.BB`, 8 bits each for `LD.YB` and `LD.PX`). -/

namespace Sys2Proof

open Machine

/-- Why the decoder gives no command. -/
inductive DecodeError where
  /-- `cmd` is none of the 26 values of R95: the CORE raises `IllegalCommand` (R96). -/
  | illegalCommand (cmd : Byte)
  /-- The packet has no format of R92. -/
  | malformed (why : Malformed)
  deriving DecidableEq, Repr

/-- An operand field: the first `XLEN` bits and what follows them, or nothing when fewer are left (R92). -/
def takeWord (cfg : Params) (p : Bits) : Option (Nat × Bits) :=
  if cfg.xlen ≤ p.length then some (bitsVal (p.take cfg.xlen), p.drop cfg.xlen) else none

/-- Format C0: nothing follows `cmd` (R92). -/
def decodeC0 (i : Instr) (rest : Bits) : Except DecodeError Instr :=
  if rest = [] then .ok i else .error (.malformed .excessBits)

/-- Format C1: one operand field (R92). -/
def decodeC1 (cfg : Params) (mk : Nat → Instr) (rest : Bits) : Except DecodeError Instr :=
  match takeWord cfg rest with
  | none => .error (.malformed .operandMissing)
  | some (a, tail) => decodeC0 (mk a) tail

/-- Format C2: two operand fields (R92). -/
def decodeC2 (cfg : Params) (mk : Nat → Nat → Instr) (rest : Bits) : Except DecodeError Instr :=
  match takeWord cfg rest with
  | none => .error (.malformed .operandMissing)
  | some (a, tail) => decodeC1 cfg (mk a) tail

/-- Format CD with bits as units: `n`, then exactly `n` bits (R92). -/
def decodeCDBits (cfg : Params) (rest : Bits) : Except DecodeError Instr :=
  match takeWord cfg rest with
  | none => .error (.malformed .operandMissing)
  | some (n, data) => if data.length = n then .ok (.ldBb n data) else .error (.malformed .dataCount)

/-- Format CD with bytes as units: `n`, then exactly `n` bytes (R92). -/
def decodeCDBytes (cfg : Params) (rest : Bits) : Except DecodeError Instr :=
  match takeWord cfg rest with
  | none => .error (.malformed .operandMissing)
  | some (n, data) =>
      if data.length = 8 * n then .ok (.ldYb n (pagesToBytes data)) else .error (.malformed .dataCount)

/-- Format CP: `w`, `h`, then a whole number of bytes, whose count R240 tests (R92). -/
def decodeCP (cfg : Params) (rest : Bits) : Except DecodeError Instr :=
  match takeWord cfg rest with
  | none => .error (.malformed .operandMissing)
  | some (w, tail) =>
    match takeWord cfg tail with
    | none => .error (.malformed .operandMissing)
    | some (h, data) =>
        if data.length % 8 = 0 then .ok (.ldPx w h (pagesToBytes data)) else .error (.malformed .partialByte)

/-- The opcode map of R95, all 8 bits of `cmd` matched; every other value is illegal (R96). -/
def decodeBody (cfg : Params) (cmd : Byte) (rest : Bits) : Except DecodeError Instr :=
  match cmd with
  | 0x10#8 => decodeC2 cfg .dec2bin rest
  | 0x11#8 => decodeC0 .bin2dec rest
  | 0x12#8 => decodeC1 cfg .byte2bits rest
  | 0x13#8 => decodeC0 .bits2byte rest
  | 0x14#8 => decodeC0 .pages2bytes rest
  | 0x15#8 => decodeC0 .bin2str rest
  | 0x20#8 => decodeC0 .hdrGen rest
  | 0x21#8 => decodeC0 .hdrParse rest
  | 0x30#8 => decodeC2 cfg .rasterCap rest
  | 0x31#8 => decodeC2 cfg .rasterEnc rest
  | 0x32#8 => decodeC2 cfg .rasterDec rest
  | 0x40#8 => decodeC0 .chunkBpf rest
  | 0x41#8 => decodeC1 cfg .chunkMaxblk rest
  | 0x42#8 => decodeC0 .chunkDerive rest
  | 0x43#8 => decodeC0 .pageBuild rest
  | 0x44#8 => decodeC1 cfg .pageUnpack rest
  | 0x50#8 => decodeC2 cfg .sesSet rest
  | 0x51#8 => decodeC1 cfg .sesSets rest
  | 0x52#8 => decodeC1 cfg .sesGet rest
  | 0x53#8 => decodeC1 cfg .sesGets rest
  | 0x54#8 => decodeCDBits cfg rest
  | 0x55#8 => decodeC0 .stBb rest
  | 0x56#8 => decodeCDBytes cfg rest
  | 0x57#8 => decodeC0 .stYb rest
  | 0x58#8 => decodeCP cfg rest
  | 0x59#8 => decodeC0 .stPx rest
  | _ => .error (.illegalCommand cmd)

/-- The command a packet carries: `cmd` first (R91), then the fields its format says. Total on every bit sequence. -/
def decode (cfg : Params) (p : Bits) : Except DecodeError Instr :=
  if 8 ≤ p.length then decodeBody cfg (bitsToByte (p.take 8)) (p.drop 8) else .error (.malformed .noCommandWord)

/-! ## The encoder -/

/-- A scalar operand field (R92): `XLEN` bits, most significant first. -/
def wordBits (cfg : Params) (a : Nat) : Bits := decToBin a cfg.xlen

/-- `[cmd]` (C0). -/
def packC0 (cmd : Byte) : Bits := byteToBits cmd

/-- `[cmd | a]` (C1). -/
def packC1 (cfg : Params) (cmd : Byte) (a : Nat) : Bits := byteToBits cmd ++ wordBits cfg a

/-- `[cmd | a | b]` (C2). -/
def packC2 (cfg : Params) (cmd : Byte) (a b : Nat) : Bits := byteToBits cmd ++ (wordBits cfg a ++ wordBits cfg b)

/-- `[cmd | n | data]` (CD), the data already as bits. -/
def packCD (cfg : Params) (cmd : Byte) (n : Nat) (data : Bits) : Bits := byteToBits cmd ++ (wordBits cfg n ++ data)

/-- `[cmd | w | h | data]` (CP). -/
def packCP (cfg : Params) (cmd : Byte) (w h : Nat) (data : Bytes) : Bits :=
  byteToBits cmd ++ (wordBits cfg w ++ (wordBits cfg h ++ bytesToBits data))

/-- The packet of a command, from the `cmd` and format columns of R95. -/
def encode (cfg : Params) : Instr → Bits
  | .dec2bin value width => packC2 cfg 0x10 value width
  | .bin2dec => packC0 0x11
  | .byte2bits v => packC1 cfg 0x12 v
  | .bits2byte => packC0 0x13
  | .pages2bytes => packC0 0x14
  | .bin2str => packC0 0x15
  | .hdrGen => packC0 0x20
  | .hdrParse => packC0 0x21
  | .rasterCap mode edge => packC2 cfg 0x30 mode edge
  | .rasterEnc mode edge => packC2 cfg 0x31 mode edge
  | .rasterDec mode edge => packC2 cfg 0x32 mode edge
  | .chunkBpf => packC0 0x40
  | .chunkMaxblk required => packC1 cfg 0x41 required
  | .chunkDerive => packC0 0x42
  | .pageBuild => packC0 0x43
  | .pageUnpack i => packC1 cfg 0x44 i
  | .sesSet f v => packC2 cfg 0x50 f v
  | .sesSets f => packC1 cfg 0x51 f
  | .sesGet f => packC1 cfg 0x52 f
  | .sesGets f => packC1 cfg 0x53 f
  | .ldBb n bits => packCD cfg 0x54 n bits
  | .stBb => packC0 0x55
  | .ldYb n bytes => packCD cfg 0x56 n (bytesToBits bytes)
  | .stYb => packC0 0x57
  | .ldPx w h data => packCP cfg 0x58 w h data
  | .stPx => packC0 0x59

/-! ## Words of the opcode table -/

/-- How many scalar fields follow `cmd` in the packet (R92, R95); none for an illegal `cmd`. -/
def operandFields (cmd : Byte) : Nat :=
  match cmd with
  | 0x10#8 | 0x30#8 | 0x31#8 | 0x32#8 | 0x50#8 | 0x58#8 => 2
  | 0x12#8 | 0x41#8 | 0x44#8 | 0x51#8 | 0x52#8 | 0x53#8 | 0x54#8 | 0x56#8 => 1
  | _ => 0

/-- The packet whose first `nbits` bits are the byte words of `w` (the table's numbering: byte 0 of `w` is the first word) and
whose operand fields beyond them are zero; a CD or CP packet then has no data (`n = 0`, `w = h = 0`). -/
def tablePacket (cfg : Params) (nbits w : Nat) : Bits :=
  let given := (List.range (nbits / 8)).flatMap (fun k => byteToBits (BitVec.ofNat 8 (w / 256 ^ k)))
  given ++ zeros (8 + cfg.xlen * operandFields (BitVec.ofNat 8 w) - given.length)

/-- The command the decoder reads from an opcode-table word, at the default parameters (R8). -/
def decodeTableWord (nbits w : Nat) : Option Instr :=
  match decode Params.defaults (tablePacket Params.defaults nbits w) with
  | .ok i => some i
  | .error _ => none

end Sys2Proof
end

