-- ==== Sys2Proof/Machine/State.lean ====
section
/-! DEFINITION. The CORE's architectural state (spec rule R20), the host's side of its port, the reasons a step can stop, and reset.

`set(F)`, `PX.valid` and `R0.valid` (R27, R34) are the `Option` constructors of the fields: an unset field, an invalid `PX` or
`R0` has no readable value in the spec ("unspecified and unobservable", R40), so it holds none here (notes/assumptions/5.md). -/

namespace Sys2Proof.Machine

/-- The density modes of the closed lookup (R110); a set `MODE` is always one of these (R31). -/
inductive VideoMode where
  | monochrome
  | grayscale
  | color3
  | color8
  | color16
  deriving DecidableEq, Repr

/-- The contents of `FAULT`: `noFault` (code 0) or a fault's cause, in the order of the codes 1..19 (R28, R293). -/
inductive Cause where
  | noFault
  | illegalCommand
  | operandRange
  | sessionFieldUnset
  | bufferInvalid
  | sessionSealed
  | widthTooSmall
  | notBinary
  | bitCountNot8
  | lengthNotMultipleOf8
  | filenameTooLong
  | checksumLength
  | unrecognizedVideoType
  | unsupportedMode
  | incompatibleDimensions
  | capacityExceeded
  | headerLengthMismatch
  | frameLengthMismatch
  | trimUnderflow
  | resultOverflow
  deriving DecidableEq, Repr

/-- One pixel: three channels of 8 bits (R25). -/
structure Pixel where
  r : Byte
  g : Byte
  b : Byte
  deriving DecidableEq, Repr

/-- A pixel frame: `PX.w`, `PX.h` and `PX.w * PX.h` pixels in the linear order of R63, pixel `(x, y)` at `y*w + x` (R25). -/
structure Frame where
  w : Nat
  h : Nat
  pixels : List Pixel
  deriving DecidableEq, Repr

/-- The session register file: the 11 fields of R30, `none` while unset (R34). Each scalar is a natural below `2^width`, the width of
R30 (`DIM_BITS` or `XLEN`), which `State.Sized` of Safety.lean states. -/
structure Srf where
  /-- 0: video mode. -/
  mode : Option VideoMode
  /-- 1: pixel block size, `DIM_BITS` wide. -/
  psize : Option Nat
  /-- 2: frame width, `DIM_BITS` wide. -/
  w : Option Nat
  /-- 3: frame height, `DIM_BITS` wide. -/
  h : Option Nat
  /-- 4: fps, `DIM_BITS` wide; read by `SES.GET` alone. -/
  fps : Option Nat
  /-- 5: checksum string, at most `STR_MAX` bytes. -/
  checksum : Option Bytes
  /-- 6: filename string, at most `STR_MAX` bytes. -/
  fname : Option Bytes
  /-- 7: file size, `XLEN` wide. -/
  fsize : Option Nat
  /-- 8: bytes per frame, `XLEN` wide. -/
  bpf : Option Nat
  /-- 9: unused bytes, `XLEN` wide. -/
  unused : Option Nat
  /-- 10: total frames, `XLEN` wide. -/
  tframes : Option Nat
  deriving DecidableEq, Repr

/-- `Response.status` (R94). -/
inductive Status where
  | ok
  | fault
  deriving DecidableEq, Repr

/-- `Response.data` (R94): what `ST.BB`, `ST.YB` and `ST.PX` carry out; absent otherwise. -/
inductive ResponseData where
  | absent
  | bits (b : Bits)
  | bytes (y : Bytes)
  | frame (w h : Nat) (transfer : Bytes)
  deriving DecidableEq, Repr

/-- The response packet that ends every command (R94). `r0` is `none` when `r0v = 0`. -/
structure Response where
  status : Status
  cause : Cause
  r0 : Option Nat
  data : ResponseData
  deriving DecidableEq, Repr

/-- What the host does to the CORE: it issues a command packet (R91) or pulls reset (R330). -/
inductive HostEvent where
  | command (packet : Bits)
  | reset
  deriving DecidableEq, Repr

/-- The state: R20's tuple, and the model's own fields: the parameters (notes/assumptions/1.md) and two for the port
(notes/assumptions/2.md). -/
structure State where
  /-- MODEL's own, and a constant: the parameters this CORE was built with (R8, R39). No command and no reset writes it
  (notes/assumptions/1.md). -/
  params : Params
  /-- Session register file (R30). -/
  srf : Srf
  /-- `SEALED` (R36). -/
  sealed : Bool
  /-- `BB`, the bit buffer (R23). -/
  bb : Bits
  /-- `YB`, the byte buffer (R24). -/
  yb : Bytes
  /-- `PX`, the pixel frame buffer; `none` is `PX.valid = 0` (R25). -/
  px : Option Frame
  /-- `R0`, the scalar result, `XLEN` wide; `none` is `R0.valid = 0` (R26). -/
  r0 : Option Nat
  /-- `HALT` (R27). -/
  halt : Bool
  /-- `FAULT` (R28). -/
  fault : Cause
  /-- MODEL's own: the host's pending events, the next one first. -/
  inbox : List HostEvent
  /-- MODEL's own: the response packet of the latest command since reset (R94), if any. -/
  response : Option Response
  deriving DecidableEq, Repr

/-- The reasons a step can stop with a fault of the machine: none. Every fault of this hardware is an entry that the spec
describes (R300): a next state with `HALT` and `FAULT` written. No definition raises one, which is safe
(notes/assumptions/6.md). -/
inductive Fault where
  deriving DecidableEq, Repr

/-- The reasons a step can refuse. -/
inductive Refusal where
  /-- Raised by an arm of `exec` whose instruction has no meaning yet; no arm of this model raises it. Safe. -/
  | notModelled (mnemonic : String)
  /-- Raised by `step` when the host's bit sequence is no packet of any format of R92 and the CORE is not halted: the spec gives
  such a sequence no effect and no cause. Safe: no claim about a next state follows. -/
  | malformedPacket (why : Malformed)
  deriving DecidableEq, Repr

/-- The session register file after reset: every field unset (R40). -/
def Srf.reset : Srf :=
  { mode := none, psize := none, w := none, h := none, fps := none, checksum := none, fname := none, fsize := none
    bpf := none, unused := none, tframes := none }

/-- The state after reset of a CORE with the parameters `cfg`, exactly R40; the port holds no event and no response
(notes/assumptions/2.md). -/
def State.resetWith (cfg : Params) : State :=
  { params := cfg, srf := Srf.reset, sealed := false, bb := [], yb := [], px := none, r0 := none, halt := false, fault := .noFault
    inbox := [], response := none }

/-- The state after reset at the default parameters (R8, R40). -/
def State.reset : State := State.resetWith Params.defaults

end Sys2Proof.Machine
end

