-- ==== Sys2Proof/Machine/Ops.lean ====
section
/-! DEFINITION. The named operations every command is built from: checks, reads of fields that can be unset, checked writes, and the
three ways a command ends (completed, faulted, refused), with reset beside them.

TAKING A FAULT is `State.takeFault` (spec rule R300). There is no return from a fault (R304): the one way out is reset,
`State.applyReset` (R330). -/

namespace Sys2Proof.Machine

/-- What one step or one command answers. -/
abbrev Result := Host.Outcome State Fault Refusal

/-- The work of one command before it ends: a cause, or what it computed (R14, R15). -/
abbrev Work (α : Type) := Except Cause α

/-- The code of a cause (R293). -/
def Cause.code : Cause → Nat
  | .noFault => 0
  | .illegalCommand => 1
  | .operandRange => 2
  | .sessionFieldUnset => 3
  | .bufferInvalid => 4
  | .sessionSealed => 5
  | .widthTooSmall => 6
  | .notBinary => 7
  | .bitCountNot8 => 8
  | .lengthNotMultipleOf8 => 9
  | .filenameTooLong => 10
  | .checksumLength => 11
  | .unrecognizedVideoType => 12
  | .unsupportedMode => 13
  | .incompatibleDimensions => 14
  | .capacityExceeded => 15
  | .headerLengthMismatch => 16
  | .frameLengthMismatch => 17
  | .trimUnderflow => 18
  | .resultOverflow => 19

/-! ## Whole-register writes (R21: a command that writes a register replaces its whole content) -/

/-- Write the session register file. -/
def State.setSrf (s : State) (v : Srf) : State := { s with srf := v }

/-- `SEALED <- 1` (R36). -/
def State.seal (s : State) : State := { s with sealed := true }

/-- `BB <- v` (R14). -/
def State.setBB (s : State) (v : Bits) : State := { s with bb := v }

/-- `YB <- v` (R14). -/
def State.setYB (s : State) (v : Bytes) : State := { s with yb := v }

/-- `PX <- v` and `PX.valid <- 1` (R25). -/
def State.setPX (s : State) (v : Frame) : State := { s with px := some v }

/-- `R0 <- v` and `R0.valid <- 1` (R14, R26). -/
def State.setR0 (s : State) (v : Nat) : State := { s with r0 := some v }

/-- Leave the response packet of a command at the port (R94). -/
def State.respond (s : State) (v : Response) : State := { s with response := some v }

/-- Set the host's pending events. -/
def State.setInbox (s : State) (v : List HostEvent) : State := { s with inbox := v }

/-! ## Checks and reads -/

/-- `require c else cause` (R14). -/
def require (c : Prop) [Decidable c] (cause : Cause) : Work Unit := if c then .ok () else .error cause

/-- The read of a session field: `SessionFieldUnset` while it is unset (R34). -/
def readField {α : Type} (field : Option α) : Work α :=
  match field with
  | some v => .ok v
  | none => .error .sessionFieldUnset

/-- The read of `PX`: `BufferInvalid` while `PX.valid = 0` (R34). -/
def readPX (s : State) : Work Frame :=
  match s.px with
  | some f => .ok f
  | none => .error .bufferInvalid

/-- A length that `BB` (in bits) or `YB` (in bytes) can hold: at most `BUF_MAX` (R8). -/
def fitsBuffer (cfg : Params) (len : Nat) : Bool :=
  match cfg.bufMax with
  | none => true
  | some m => decide (len ≤ m)

/-- A scalar on its way to `R0` or to an `XLEN`-bit session field: `ResultOverflow` at `2^XLEN` or more (R298). -/
def toWord (cfg : Params) (v : Nat) : Work Nat :=
  if v < 2 ^ cfg.xlen then .ok v else .error .resultOverflow

/-! ## Checked writes (R298: `ResultOverflow` after all the checks of the command's rule) -/

/-- `BB <- b`. -/
def storeBB (s : State) (b : Bits) : Work State :=
  if fitsBuffer s.params b.length then .ok (s.setBB b) else .error .resultOverflow

/-- `YB <- y`. -/
def storeYB (s : State) (y : Bytes) : Work State :=
  if fitsBuffer s.params y.length then .ok (s.setYB y) else .error .resultOverflow

/-- `R0 <- v` for a natural `v`. -/
def storeR0 (s : State) (v : Nat) : Work State :=
  match toWord s.params v with
  | .ok r => .ok (s.setR0 r)
  | .error c => .error c

/-! ## How a command ends -/

/-- A completed command's response: `OK`, cause 0, `R0` as it is after the command, the data if any (R94). -/
def State.completed (s : State) (data : ResponseData) : State :=
  s.respond { status := .ok, cause := .noFault, r0 := s.r0, data := data }

/-- FAULT ENTRY (R300): `FAULT <- c`, `HALT <- 1`, the response carries `c` and `R0` as before the command, and nothing else
changes. No handler, no vector, no saved context (R294, R300). -/
def State.takeFault (s : State) (c : Cause) : State :=
  { s with halt := true, fault := c
           response := some { status := .fault, cause := c, r0 := s.r0, data := .absent } }

/-- A command refused by a halted CORE (R302): it changes nothing, not even `FAULT`, and its response repeats the stored cause. -/
def State.refuseHalted (s : State) : State :=
  s.respond { status := .fault, cause := s.fault, r0 := s.r0, data := .absent }

/-- RESET (R330): the whole state takes the values of R40. The host's further events are not the CORE's to discard. -/
def State.applyReset (s : State) : State := (State.resetWith s.params).setInbox s.inbox

/-- One command, from its issue to its response. A halted CORE refuses it (R296 item 1, R302); else its work either completes
with every write, or faults with none (R15, R300). -/
def runCommand (s : State) (work : Work (State × ResponseData)) : Result :=
  if s.halt then .next s.refuseHalted
  else
    match work with
    | .ok (t, data) => .next (t.completed data)
    | .error c => .next (s.takeFault c)

/-- The work of a command whose response carries no data. -/
def silent (work : Work State) : Work (State × ResponseData) :=
  match work with
  | .ok t => .ok (t, .absent)
  | .error c => .error c

end Sys2Proof.Machine
end

