-- ==== Sys2Proof/Machine/Flags.lean ====
section
/-! DEFINITION. The one-bit status flags of spec rule R27, as reads of the state, and the one flag that is a side effect: a write of
`MODE`, `PSIZE`, `W` or `H` clears `set(BPF)` (R35). The CORE has no arithmetic condition codes (R27). -/

namespace Sys2Proof.Machine

/-- `PX.valid` (R27). -/
def State.pxValid (s : State) : Bool := s.px.isSome

/-- `R0.valid` (R27). -/
def State.r0Valid (s : State) : Bool := s.r0.isSome

/-- `set(F)` for the field with selector `f` of R30; no field has another selector. -/
def Srf.isSet (r : Srf) (f : Nat) : Bool :=
  match f with
  | 0 => r.mode.isSome
  | 1 => r.psize.isSome
  | 2 => r.w.isSome
  | 3 => r.h.isSome
  | 4 => r.fps.isSome
  | 5 => r.checksum.isSome
  | 6 => r.fname.isSome
  | 7 => r.fsize.isSome
  | 8 => r.bpf.isSome
  | 9 => r.unused.isSome
  | 10 => r.tframes.isSome
  | _ => false

/-- `set(BPF) <- 0` (R35). -/
def Srf.clearBpf (r : Srf) : Srf := { r with bpf := none }

/-- `require SEALED = 0 else SessionSealed` (R36). -/
def requireUnsealed (s : State) : Work Unit := require (s.sealed = false) .sessionSealed

end Sys2Proof.Machine
end

