-- ==== Sys2Proof/Machine/Operands.lean ====
section
/-! DEFINITION. The operand kinds of spec rule R93: mode codes, block sizes, field selectors; and the reads and writes of a
session field by selector. Scalar operands are taken as they stand (R92), as naturals (R9, R10). -/

namespace Sys2Proof.Machine

/-! ## Mode codes (R110, R111) -/

/-- The 4-bit code of a mode (R110). -/
def VideoMode.code : VideoMode → Nat
  | .monochrome => 0
  | .grayscale => 1
  | .color3 => 2
  | .color8 => 3
  | .color16 => 4

/-- The closed lookup of R110; a code above 4 denotes no mode (R111). -/
def VideoMode.ofCode (code : Nat) : Option VideoMode :=
  match code with
  | 0 => some .monochrome
  | 1 => some .grayscale
  | 2 => some .color3
  | 3 => some .color8
  | 4 => some .color16
  | _ => none

/-- The implemented modes, the two that have a bits-per-block constant (R171). -/
inductive Density where
  | monochrome
  | color3
  deriving DecidableEq, Repr

/-- `BPB(mode)` (R171). -/
def Density.bpb : Density → Nat
  | .monochrome => 1
  | .color3 => 3

/-- An implemented mode, or `UnsupportedMode` for the reserved ones (R111, R175). -/
def VideoMode.density : VideoMode → Work Density
  | .monochrome => .ok .monochrome
  | .color3 => .ok .color3
  | .grayscale => .error .unsupportedMode
  | .color8 => .error .unsupportedMode
  | .color16 => .error .unsupportedMode

/-- A code as a mode, or `UnrecognizedVideoType` (R111). -/
def recognizeMode (code : Nat) : Work VideoMode :=
  match VideoMode.ofCode code with
  | some m => .ok m
  | none => .error .unrecognizedVideoType

/-- The mode check of R175 on a mode operand. -/
def modeOperand (mode : Nat) : Work Density :=
  match recognizeMode mode with
  | .ok m => m.density
  | .error c => .error c

/-! ## Block sizes and geometry -/

/-- A block size operand must be below `2^DIM_BITS` (R93). -/
def blockSizeOperand (cfg : Params) (edge : Nat) : Work Nat :=
  if edge < 2 ^ cfg.dimBits then .ok edge else .error .operandRange

/-- `geometry_ok(S, W, H)` (R176). -/
def geometryOk (edge width height : Nat) : Work Unit :=
  match require (edge ≥ 1 ∧ width ≥ 1 ∧ height ≥ 1) .incompatibleDimensions with
  | .error c => .error c
  | .ok _ => require (width % edge = 0 ∧ height % edge = 0) .incompatibleDimensions

/-! ## Field selectors (R30, R230) -/

/-- The scalar fields the host may write. -/
inductive HostField where
  | mode
  | psize
  | w
  | h
  | fps
  | fsize
  deriving DecidableEq, Repr

/-- The string fields. -/
inductive StringField where
  | checksum
  | fname
  deriving DecidableEq, Repr

/-- The scalar fields. -/
inductive ScalarField where
  | mode
  | psize
  | w
  | h
  | fps
  | fsize
  | bpf
  | unused
  | tframes
  deriving DecidableEq, Repr

/-- `f in {0, 1, 2, 3, 4, 7}` (R231). -/
def HostField.ofSelector (f : Nat) : Option HostField :=
  match f with
  | 0 => some .mode
  | 1 => some .psize
  | 2 => some .w
  | 3 => some .h
  | 4 => some .fps
  | 7 => some .fsize
  | _ => none

/-- `f in {5, 6}` (R232, R234). -/
def StringField.ofSelector (f : Nat) : Option StringField :=
  match f with
  | 5 => some .checksum
  | 6 => some .fname
  | _ => none

/-- `f in {0, 1, 2, 3, 4, 7, 8, 9, 10}` (R233). -/
def ScalarField.ofSelector (f : Nat) : Option ScalarField :=
  match f with
  | 0 => some .mode
  | 1 => some .psize
  | 2 => some .w
  | 3 => some .h
  | 4 => some .fps
  | 7 => some .fsize
  | 8 => some .bpf
  | 9 => some .unused
  | 10 => some .tframes
  | _ => none

/-- A selector operand of a class, or `OperandRange` (R231 to R234). -/
def selector {α : Type} (field : Option α) : Work α :=
  match field with
  | some f => .ok f
  | none => .error .operandRange

/-! ## Session fields by selector -/

/-- The value of a scalar field as a natural, `none` while unset (R233). -/
def Srf.scalar (r : Srf) : ScalarField → Option Nat
  | .mode => r.mode.map VideoMode.code
  | .psize => r.psize
  | .w => r.w
  | .h => r.h
  | .fps => r.fps
  | .fsize => r.fsize
  | .bpf => r.bpf
  | .unused => r.unused
  | .tframes => r.tframes

/-- The value of a string field, `none` while unset (R234). -/
def Srf.string (r : Srf) : StringField → Option Bytes
  | .checksum => r.checksum
  | .fname => r.fname

/-- A value for a `DIM_BITS`-wide field, or `OperandRange` (R33, R231). -/
def dimValue (cfg : Params) (v : Nat) : Work Nat :=
  if v < 2 ^ cfg.dimBits then .ok v else .error .operandRange

/-- The write of `SES.SET` (R231): the value checked for its field, the field written, and `set(BPF)` cleared by a write of `MODE`,
`PSIZE`, `W` or `H` (R35). -/
def Srf.setScalar (r : Srf) (cfg : Params) (field : HostField) (v : Nat) : Work Srf :=
  match field with
  | .mode => do
      let m ← recognizeMode v
      pure { r.clearBpf with mode := some m }
  | .psize => do
      let d ← dimValue cfg v
      pure { r.clearBpf with psize := some d }
  | .w => do
      let d ← dimValue cfg v
      pure { r.clearBpf with w := some d }
  | .h => do
      let d ← dimValue cfg v
      pure { r.clearBpf with h := some d }
  | .fps => do
      let d ← dimValue cfg v
      pure { r with fps := some d }
  | .fsize => pure { r with fsize := some v }

/-- The write of `SES.SETS` (R232). -/
def Srf.setString (r : Srf) (field : StringField) (y : Bytes) : Srf :=
  match field with
  | .checksum => { r with checksum := some y }
  | .fname => { r with fname := some y }

end Sys2Proof.Machine
end

