-- ==== Sys2Proof/Machine/BitCodec.lean ====
section
/-! DEFINITION. The BitCodec commands (spec rules R131, R133, R135, R136, R137, R139). -/

namespace Sys2Proof.Machine

/-- `DEC2BIN value, width` (R131). -/
def execDec2bin (value width : Nat) (s : State) : Result :=
  runCommand s <| silent do
    require (fitsBuffer s.params width = true) .operandRange
    require (width ≥ 1) .widthTooSmall
    require (value < 2 ^ width) .widthTooSmall
    storeBB s (decToBin value width)

/-- `BIN2DEC` (R133). -/
def execBin2dec (s : State) : Result :=
  runCommand s <| silent do
    require (s.bb.length ≥ 1) .notBinary
    require (bitsVal s.bb < 2 ^ s.params.xlen) .notBinary
    storeR0 s (bitsVal s.bb)

/-- `BYTE2BITS v` (R135). -/
def execByte2bits (v : Nat) (s : State) : Result :=
  runCommand s <| silent do
    require (v ≤ 255) .operandRange
    storeBB s (byteToBits (BitVec.ofNat 8 v))

/-- `BITS2BYTE` (R136). -/
def execBits2byte (s : State) : Result :=
  runCommand s <| silent do
    require (s.bb.length = 8) .bitCountNot8
    storeR0 s (bitsToByte s.bb).toNat

/-- `PAGES2BYTES` (R137). -/
def execPages2bytes (s : State) : Result :=
  runCommand s <| silent do
    require (s.bb.length % 8 = 0) .lengthNotMultipleOf8
    storeYB s (pagesToBytes s.bb)

/-- `BIN2STR` (R139). -/
def execBin2str (s : State) : Result :=
  runCommand s <| silent do
    require (s.bb.length % 8 = 0) .lengthNotMultipleOf8
    storeYB s (binToStr s.bb)

end Sys2Proof.Machine
end

