-- ==== Sys2Proof/Machine/Pixels.lean ====
section
/-! DEFINITION. The pixel space of `PX` (spec rules R60, R63), its transfer layout (R63), and BlockRaster's pure functions
(R64, R170 to R174, R180, R181, R115 to R117). -/

namespace Sys2Proof.Machine

/-! ## Pixels and their transfer layout -/

/-- Black (R115). -/
def black : Pixel := { r := 0, g := 0, b := 0 }

/-- A frame that holds exactly `w * h` pixels (R25). -/
def Frame.wf (f : Frame) : Bool := f.pixels.length == f.w * f.h

/-- `PxRead(x, y)` (R63), the pixel at list index `y*w + x`. R63 defines it only for `x < w` and `y < h`. Elsewhere the model reads the
same index, DESIGN CHOICE, notes/assumptions/7.md: for `x >= w` a pixel of a later row where the list has one, and black past the end of
the list, also where the list is too short. Every frame a command stores has all its pixels, and no command reads outside them. -/
def Frame.pixel (f : Frame) (x y : Nat) : Pixel := f.pixels.getD (y * f.w + x) black

/-- The transfer bytes of a frame: channel `c` (R, G, B) of pixel `(x, y)` is byte `(y*w + x)*3 + c` (R63). -/
def Frame.transfer (f : Frame) : Bytes := f.pixels.flatMap (fun p => [p.r, p.g, p.b])

/-- The pixels of a transfer byte sequence, three bytes each (R63). -/
def pixelsOfBytes : Bytes → List Pixel
  | r :: g :: b :: rest => { r := r, g := g, b := b } :: pixelsOfBytes rest
  | _ => []

/-! ## The raster of a frame -/

/-- An implemented mode, a block edge and a frame's dimensions: the operands of BlockRaster's functions (R172 to R174). -/
structure Raster where
  density : Density
  edge : Nat
  width : Nat
  height : Nat
  deriving DecidableEq, Repr

/-- `cols = W div S` (R64). -/
def Raster.cols (g : Raster) : Nat := g.width / g.edge

/-- `rows = H div S` (R64). -/
def Raster.rows (g : Raster) : Nat := g.height / g.edge

/-- `blocks = cols * rows` (R64). -/
def Raster.blocks (g : Raster) : Nat := g.cols * g.rows

/-- `capacity(mode, S, W, H)` in bits (R172). -/
def Raster.capacity (g : Raster) : Nat := g.cols * g.rows * g.density.bpb

/-- The block that covers pixel `(x, y)`: at `col = x div S`, `row = y div S`, index `row * cols + col` (R64, R170). -/
def Raster.blockOf (g : Raster) (x y : Nat) : Nat := y / g.edge * g.cols + x / g.edge

/-- `bits ++ zeros(capacity - len(bits))` (R173). -/
def Raster.page (g : Raster) (bits : Bits) : Bits := bits ++ zeros (g.capacity - bits.length)

/-- A channel painted for a bit: full intensity or zero (R115, R116). -/
def channelOf (bit : Bool) : Byte := if bit then BitVec.ofNat 8 Config.full else 0

/-- The colour of block `n` of a page (R173): white or black (R115), or red, green, blue by the block's three bits (R116). -/
def Raster.colour (g : Raster) (page : Bits) (n : Nat) : Pixel :=
  match g.density with
  | .monochrome =>
      { r := channelOf (page.getD n false), g := channelOf (page.getD n false), b := channelOf (page.getD n false) }
  | .color3 =>
      { r := channelOf (page.getD (3 * n) false), g := channelOf (page.getD (3 * n + 1) false)
        b := channelOf (page.getD (3 * n + 2) false) }

/-- `raster_encode(bits, mode, S, W, H)` (R173): every pixel has its block's colour. -/
def Raster.encode (g : Raster) (bits : Bits) : Frame :=
  { w := g.width
    h := g.height
    pixels := (List.range (g.width * g.height)).map fun k =>
      g.colour (g.page bits) (g.blockOf (k % g.width) (k / g.width)) }

/-- `mono(r, g, b)`: the exact sum against three thresholds (R180). -/
def monoBit (p : Pixel) : Bool := decide (p.r.toNat + p.g.toNat + p.b.toNat ≥ 3 * Config.threshold)

/-- A channel against the threshold (R181). -/
def channelBit (c : Byte) : Bool := decide (c.toNat ≥ Config.threshold)

/-- The bits a pixel stands for (R117): one in Monochrome, red, green, blue in Color3. -/
def pixelBits (d : Density) (p : Pixel) : Bits :=
  match d with
  | .monochrome => [monoBit p]
  | .color3 => [channelBit p.r, channelBit p.g, channelBit p.b]

/-- The column of block `n`'s centre pixel (R64). -/
def Raster.centreX (g : Raster) (n : Nat) : Nat := n % g.cols * g.edge + g.edge / 2

/-- The row of block `n`'s centre pixel (R64). -/
def Raster.centreY (g : Raster) (n : Nat) : Nat := n / g.cols * g.edge + g.edge / 2

/-- `raster_decode(frame, mode, S, W, H)` (R174): the bits of each block's centre pixel, in ascending block index. -/
def Raster.decode (g : Raster) (f : Frame) : Bits :=
  (List.range g.blocks).flatMap fun n => pixelBits g.density (f.pixel (g.centreX n) (g.centreY n))

end Sys2Proof.Machine
end

