-- ==== Sys2Proof/Machine/BlockRaster.lean ====
section
/-! DEFINITION. The BlockRaster commands (spec rules R175 to R178, R182). -/

namespace Sys2Proof.Machine

/-- The checks common to the three commands, in their order: block size range, mode (R175), `W`, `H` set, geometry (R176). -/
def rasterSetup (mode edge : Nat) (s : State) : Work Raster := do
  let e ← blockSizeOperand s.params edge
  let d ← modeOperand mode
  let w ← readField s.srf.w
  let h ← readField s.srf.h
  geometryOk e w h
  pure { density := d, edge := e, width := w, height := h }

/-- `RASTER.CAP mode, S` (R177). -/
def execRasterCap (mode edge : Nat) (s : State) : Result :=
  runCommand s <| silent do
    let g ← rasterSetup mode edge s
    storeR0 s g.capacity

/-- `RASTER.ENC mode, S` (R178). -/
def execRasterEnc (mode edge : Nat) (s : State) : Result :=
  runCommand s <| silent do
    let g ← rasterSetup mode edge s
    require (s.bb.length ≤ g.capacity) .capacityExceeded
    pure (s.setPX (g.encode s.bb))

/-- `RASTER.DEC mode, S` (R182). -/
def execRasterDec (mode edge : Nat) (s : State) : Result :=
  runCommand s <| silent do
    let g ← rasterSetup mode edge s
    let f ← readPX s
    require (f.w = g.width ∧ f.h = g.height) .frameLengthMismatch
    storeBB s (g.decode f)

end Sys2Proof.Machine
end

