-- ==== Sys2Proof/Machine/FrameChunker.lean ====
section
/-! DEFINITION. The frame-chunking arithmetic (spec rules R201, R204, R207, R210, R212) and the FrameChunker commands
(R202, R205, R208, R211, R213). All arithmetic is over the naturals (R9). -/

namespace Sys2Proof.Machine

/-- `bytes_per_frame(mode, S, W, H)` (R201): both exact divisions tested, the first on the product (R203). -/
def bytesPerFrame (d : Density) (edge width height : Nat) : Work Nat := do
  require (edge ≥ 1 ∧ width ≥ 1 ∧ height ≥ 1) .incompatibleDimensions
  require (width * height * d.bpb % (edge * edge) = 0) .incompatibleDimensions
  require (width * height * d.bpb / (edge * edge) % 8 = 0) .incompatibleDimensions
  pure (width * height * d.bpb / (edge * edge) / 8)

/-- The loop of R204 from `S` downwards: the first `S` that divides both sides with strictly more than `required` blocks. -/
def maxBlockFrom (required width height : Nat) : Nat → Option Nat
  | 0 => none
  | k + 1 =>
      if width % (k + 1) = 0 ∧ height % (k + 1) = 0 ∧ width * height / ((k + 1) * (k + 1)) > required then some (k + 1)
      else maxBlockFrom required width height k

/-- `max_block_size(required, W, H)` (R204). -/
def maxBlockSize (required width height : Nat) : Work Nat := do
  require (width ≥ 1 ∧ height ≥ 1) .incompatibleDimensions
  match maxBlockFrom required width height (Nat.gcd width height) with
  | some e => pure e
  | none => .error .incompatibleDimensions

/-- `total_frames = ceil(file_size / bytes_per_frame)` (R207, R10). -/
def totalFrames (fsize bpf : Nat) : Nat := (fsize + bpf - 1) / bpf

/-- `unused_bytes = bytes_per_frame * total_frames - file_size` (R207). -/
def unusedBytes (fsize bpf : Nat) : Nat := bpf * totalFrames fsize bpf - fsize

/-- `build_page(y, bpf)` (R210). -/
def buildPage (y : Bytes) (bpf : Nat) : Bits := bytesToBits y ++ zeros (8 * (bpf - y.length))

/-- `frame_offset(i)` (R212). -/
def frameOffset (bpf i : Nat) : Nat := i * bpf

/-- The bytes frame `i` keeps: all `bpf`, or `bpf - un` on the final frame, where more than a frame is `TrimUnderflow`
(R212, R213). -/
def keptBytes (bpf tf un i : Nat) : Work Nat :=
  if i = tf - 1 then
    if un ≤ bpf then .ok (bpf - un) else .error .trimUnderflow
  else .ok bpf

/-- `CHUNK.BPF` (R202). -/
def execChunkBpf (s : State) : Result :=
  runCommand s <| silent do
    let m ← readField s.srf.mode
    let e ← readField s.srf.psize
    let w ← readField s.srf.w
    let h ← readField s.srf.h
    let d ← m.density
    let v ← bytesPerFrame d e w h
    let r ← toWord s.params v
    pure ((s.setSrf { s.srf with bpf := some r }).setR0 r)

/-- `CHUNK.MAXBLK requiredBits` (R205). -/
def execChunkMaxblk (required : Nat) (s : State) : Result :=
  runCommand s <| silent do
    let w ← readField s.srf.w
    let h ← readField s.srf.h
    let e ← maxBlockSize required w h
    storeR0 s e

/-- `CHUNK.DERIVE` (R208). -/
def execChunkDerive (s : State) : Result :=
  runCommand s <| silent do
    requireUnsealed s
    let _ ← readField s.srf.mode
    let _ ← readField s.srf.psize
    let _ ← readField s.srf.w
    let _ ← readField s.srf.h
    let _ ← readField s.srf.checksum
    let _ ← readField s.srf.fname
    let fs ← readField s.srf.fsize
    let b ← readField s.srf.bpf
    let tf ← toWord s.params (totalFrames fs b)
    let un ← toWord s.params (unusedBytes fs b)
    pure ((s.setSrf { s.srf with tframes := some tf, unused := some un }).seal.setR0 tf)

/-- `PAGE.BUILD` (R211). -/
def execPageBuild (s : State) : Result :=
  runCommand s <| silent do
    let b ← readField s.srf.bpf
    require (s.yb.length ≤ b) .capacityExceeded
    storeBB s (buildPage s.yb b)

/-- `PAGE.UNPACK i` (R213). -/
def execPageUnpack (i : Nat) (s : State) : Result :=
  runCommand s <| silent do
    let b ← readField s.srf.bpf
    let tf ← readField s.srf.tframes
    let un ← readField s.srf.unused
    require (i < tf) .operandRange
    require (s.bb.length = 8 * b) .frameLengthMismatch
    let keep ← keptBytes b tf un i
    let r ← toWord s.params (frameOffset b i)
    let t ← storeYB s (pagesToBytes (s.bb.take (8 * keep)))
    pure (t.setR0 r)

end Sys2Proof.Machine
end

