-- ==== Sys2Proof/Machine/HeaderCodec.lean ====
section
/-! DEFINITION. The 844-bit header (spec rules R100 to R104, R150, R153) and the HeaderCodec commands (R152, R155). -/

namespace Sys2Proof.Machine

/-- The six fields of a header (R100). -/
structure Header where
  mode : VideoMode
  checksum : Bytes
  fname : Bytes
  psize : Nat
  unused : Nat
  tframes : Nat
  deriving DecidableEq, Repr

/-- `header_bits` (R150): the fields in the order of R100, the filename right-aligned with a zero-bit left pad (R103). -/
def headerBits (x : Header) : Bits :=
  decToBin x.mode.code Config.typeBits
    ++ bytesToBits x.checksum
    ++ (zeros (Config.filenameBits - 8 * x.fname.length) ++ bytesToBits x.fname)
    ++ decToBin x.psize Config.psizeBits
    ++ decToBin x.unused Config.unusedBits
    ++ decToBin x.tframes Config.tframesBits

/-- The bit offset of `checksum` (R100: 4). -/
def checksumOffset : Nat := Config.typeBits

/-- The bit offset of `filename` (R100: 516). -/
def filenameOffset : Nat := checksumOffset + Config.checksumBits

/-- The bit offset of `pixel_size` (R100: 772). -/
def psizeOffset : Nat := filenameOffset + Config.filenameBits

/-- The bit offset of `unused_bytes` (R100: 780). -/
def unusedOffset : Nat := psizeOffset + Config.psizeBits

/-- The bit offset of `total_frames` (R100: 812). -/
def tframesOffset : Nat := unusedOffset + Config.unusedBits

/-- `header_parse` (R153) on a sequence of at least 844 bits: the fields at their offsets, both strings by `bin_to_str`; the
bits from 844 on are not read. `UnrecognizedVideoType` for a type code above 4. -/
def headerParse (b : Bits) : Work Header := do
  let mode ← recognizeMode (bitsVal (slice b 0 checksumOffset))
  pure
    { mode := mode
      checksum := binToStr (slice b checksumOffset filenameOffset)
      fname := binToStr (slice b filenameOffset psizeOffset)
      psize := bitsVal (slice b psizeOffset unusedOffset)
      unused := bitsVal (slice b unusedOffset tframesOffset)
      tframes := bitsVal (slice b tframesOffset Config.headerBits) }

/-- `HDR.GEN` (R152). A reserved mode is written like any other (R152, R158). -/
def execHdrGen (s : State) : Result :=
  runCommand s <| silent do
    let m ← readField s.srf.mode
    let c ← readField s.srf.checksum
    let n ← readField s.srf.fname
    let p ← readField s.srf.psize
    let u ← readField s.srf.unused
    let t ← readField s.srf.tframes
    require (n.length ≤ Config.filenameMax) .filenameTooLong
    require (c.length = Config.checksumChars) .checksumLength
    require (p < 2 ^ Config.psizeBits) .widthTooSmall
    require (u < 2 ^ Config.unusedBits) .widthTooSmall
    require (t < 2 ^ Config.tframesBits) .widthTooSmall
    storeBB s (headerBits { mode := m, checksum := c, fname := n, psize := p, unused := u, tframes := t })

/-- The session after a header is parsed into it: the six header fields written, `set(BPF)` cleared, the others as they were
(R155). The header's numbers have at most 8 and 32 bits, so they fit their registers (R8). -/
def Srf.ofHeader (r : Srf) (x : Header) : Srf :=
  { r.clearBpf with
    mode := some x.mode
    checksum := some x.checksum
    fname := some x.fname
    psize := some x.psize
    unused := some x.unused
    tframes := some x.tframes }

/-- `HDR.PARSE` (R155). -/
def execHdrParse (s : State) : Result :=
  runCommand s <| silent do
    requireUnsealed s
    require (s.bb.length ≥ Config.headerBits) .headerLengthMismatch
    let x ← headerParse s.bb
    pure (s.setSrf (s.srf.ofHeader x)).seal

end Sys2Proof.Machine
end

