-- ==== Sys2Proof/Machine/HostInterface.lean ====
section
/-! DEFINITION. The host interface commands (spec rules R231 to R234, R236 to R241). -/

namespace Sys2Proof.Machine

/-- `SES.SET f, v` (R231). -/
def execSesSet (f v : Nat) (s : State) : Result :=
  runCommand s <| silent do
    let field ← selector (HostField.ofSelector f)
    requireUnsealed s
    let r ← s.srf.setScalar s.params field v
    pure (s.setSrf r)

/-- `SES.SETS f` (R232). -/
def execSesSets (f : Nat) (s : State) : Result :=
  runCommand s <| silent do
    let field ← selector (StringField.ofSelector f)
    requireUnsealed s
    require (s.yb.length ≤ s.params.strMax) .operandRange
    pure (s.setSrf (s.srf.setString field s.yb))

/-- `SES.GET f` (R233). -/
def execSesGet (f : Nat) (s : State) : Result :=
  runCommand s <| silent do
    let field ← selector (ScalarField.ofSelector f)
    let v ← readField (s.srf.scalar field)
    storeR0 s v

/-- `SES.GETS f` (R234). -/
def execSesGets (f : Nat) (s : State) : Result :=
  runCommand s <| silent do
    let field ← selector (StringField.ofSelector f)
    let y ← readField (s.srf.string field)
    storeYB s y

/-- `LD.BB n, bits` (R236). A packet carries exactly `n` bits; a term that carries another number has no packet
(notes/assumptions/11.md). -/
def execLdBb (n : Nat) (bits : Bits) (s : State) : Result :=
  runCommand s <| silent do
    require (fitsBuffer s.params n = true) .operandRange
    storeBB s bits

/-- `ST.BB` (R237). -/
def execStBb (s : State) : Result := runCommand s (.ok (s, .bits s.bb))

/-- `LD.YB n, bytes` (R238). A packet carries exactly `n` bytes (notes/assumptions/11.md). -/
def execLdYb (n : Nat) (bytes : Bytes) (s : State) : Result :=
  runCommand s <| silent do
    require (fitsBuffer s.params n = true) .operandRange
    storeYB s bytes

/-- `ST.YB` (R239). -/
def execStYb (s : State) : Result := runCommand s (.ok (s, .bytes s.yb))

/-- `LD.PX w, h, pixels` (R240). -/
def execLdPx (w h : Nat) (data : Bytes) (s : State) : Result :=
  runCommand s <| silent do
    require (w < 2 ^ s.params.dimBits ∧ h < 2 ^ s.params.dimBits) .operandRange
    require (data.length = w * h * 3) .operandRange
    pure (s.setPX
      { w := w, h := h, pixels := pixelsOfBytes data })

/-- `ST.PX` (R241). -/
def execStPx (s : State) : Result :=
  runCommand s do
    let f ← readPX s
    pure (s, .frame f.w f.h f.transfer)

end Sys2Proof.Machine
end

