-- ==== Sys2Proof/Machine/Dispatch.lean ====
section
/-! DEFINITION. One arm per command of spec rule R95. -/

namespace Sys2Proof.Machine

def exec (i : Instr) (s : State) : Host.Outcome State Fault Refusal :=
  match i with
  | .dec2bin value width => Sys2Proof.Machine.execDec2bin value width s
  | .bin2dec => Sys2Proof.Machine.execBin2dec s
  | .byte2bits v => Sys2Proof.Machine.execByte2bits v s
  | .bits2byte => Sys2Proof.Machine.execBits2byte s
  | .pages2bytes => Sys2Proof.Machine.execPages2bytes s
  | .bin2str => Sys2Proof.Machine.execBin2str s
  | .hdrGen => Sys2Proof.Machine.execHdrGen s
  | .hdrParse => Sys2Proof.Machine.execHdrParse s
  | .rasterCap mode edge => Sys2Proof.Machine.execRasterCap mode edge s
  | .rasterEnc mode edge => Sys2Proof.Machine.execRasterEnc mode edge s
  | .rasterDec mode edge => Sys2Proof.Machine.execRasterDec mode edge s
  | .chunkBpf => Sys2Proof.Machine.execChunkBpf s
  | .chunkMaxblk required => Sys2Proof.Machine.execChunkMaxblk required s
  | .chunkDerive => Sys2Proof.Machine.execChunkDerive s
  | .pageBuild => Sys2Proof.Machine.execPageBuild s
  | .pageUnpack k => Sys2Proof.Machine.execPageUnpack k s
  | .sesSet f v => Sys2Proof.Machine.execSesSet f v s
  | .sesSets f => Sys2Proof.Machine.execSesSets f s
  | .sesGet f => Sys2Proof.Machine.execSesGet f s
  | .sesGets f => Sys2Proof.Machine.execSesGets f s
  | .ldBb n bits => Sys2Proof.Machine.execLdBb n bits s
  | .stBb => Sys2Proof.Machine.execStBb s
  | .ldYb n bytes => Sys2Proof.Machine.execLdYb n bytes s
  | .stYb => Sys2Proof.Machine.execStYb s
  | .ldPx w h data => Sys2Proof.Machine.execLdPx w h data s
  | .stPx => Sys2Proof.Machine.execStPx s

end Sys2Proof.Machine
end

