-- ==== Sys2Proof/Machine/Port.lean ====
section
/-! DEFINITION. How one event of the host is served: the packet a halted CORE refuses, the illegal command, the decoded command, reset
(spec rules R296, R302, R96, R330). `Machine/Step.lean` only takes the next event from the inbox. -/

namespace Sys2Proof.Machine

/-- A command packet (R296): a halted CORE refuses it before looking at `cmd`; an illegal `cmd` raises `IllegalCommand`; a
bit sequence that is no packet is refused by name (notes/assumptions/4.md). -/
def serveCommand (packet : Bits) (s : State) : Result :=
  if s.halt then .next s.refuseHalted
  else
    match decode s.params packet with
    | .ok i => exec i s
    | .error (.illegalCommand _) => .next (s.takeFault .illegalCommand)
    | .error (.malformed why) => .refused (.malformedPacket why)

/-- One event of the host. -/
def serve (event : HostEvent) (s : State) : Result :=
  match event with
  | .command packet => serveCommand packet s
  | .reset => .next s.applyReset

end Sys2Proof.Machine
end

