-- ==== Sys2Proof/Machine/Step.lean ====
section
/-! DEFINITION. One step: the CORE serves the host's next event, and with none pending it does nothing (spec rule R20: "nothing but a
command or reset changes its state"; notes/assumptions/2.md). -/

namespace Sys2Proof.Machine

/-- One step of the CORE. -/
def step (s : State) : Host.Outcome State Fault Refusal :=
  match s.inbox with
  | [] => .next s
  | event :: rest => serve event (s.setInbox rest)

/-- The state in which the host has just issued, ahead of its other events, the packet of an opcode-table word (R91, R95). -/
def State.withFetchWord (s : State) (nbits w : Nat) : State :=
  s.setInbox (.command (tablePacket s.params nbits w) :: s.inbox)

end Sys2Proof.Machine
end

