-- ==== Sys2Proof/WellFormed.lean ====
section
/-! DEFINITION. Which commands have a packet: the checks of spec rules R91 and R92. Every scalar operand fits its `XLEN`-bit field, and
exactly `n` data units follow the length field of a CD format. The CP format's data may have any length, because rule R240 tests it
and raises `OperandRange`. -/

namespace Sys2Proof

/-- A scalar operand fits its field (R92, R8). -/
def operandFits (cfg : Params) (v : Nat) : Bool := decide (v < 2 ^ cfg.xlen)

/-- The length field of a CD command counts its data units (R92). -/
def dataCountOk (n units : Nat) : Bool := n == units

/-- A command that some packet of a CORE with these parameters encodes. -/
def Instr.wellFormed (cfg : Params) : Instr → Bool
  | .dec2bin value width => operandFits cfg value && operandFits cfg width
  | .bin2dec => true
  | .byte2bits v => operandFits cfg v
  | .bits2byte => true
  | .pages2bytes => true
  | .bin2str => true
  | .hdrGen => true
  | .hdrParse => true
  | .rasterCap mode edge => operandFits cfg mode && operandFits cfg edge
  | .rasterEnc mode edge => operandFits cfg mode && operandFits cfg edge
  | .rasterDec mode edge => operandFits cfg mode && operandFits cfg edge
  | .chunkBpf => true
  | .chunkMaxblk required => operandFits cfg required
  | .chunkDerive => true
  | .pageBuild => true
  | .pageUnpack i => operandFits cfg i
  | .sesSet f v => operandFits cfg f && operandFits cfg v
  | .sesSets f => operandFits cfg f
  | .sesGet f => operandFits cfg f
  | .sesGets f => operandFits cfg f
  | .ldBb n bits => operandFits cfg n && dataCountOk n bits.length
  | .stBb => true
  | .ldYb n bytes => operandFits cfg n && dataCountOk n bytes.length
  | .stYb => true
  | .ldPx w h _ => operandFits cfg w && operandFits cfg h
  | .stPx => true

end Sys2Proof
end

