-- ==== Sys2Proof/Machine/Sequences.lean ====
section
/-! DEFINITION. The host's side: the command sequences of spec rules R260 to R276 (the pseudo-instructions of R275, the encode
and decode pipelines of R262 and R266, the verdict of R271, the ends of a run of R276 and R312).

Nothing here is state of the CORE (R39): the position in a pipeline, the frame index, the frames handed to the sink and the
destination file belong to the host (R22). A run issues commands to `exec` one at a time, in order, and reads the CORE through its
responses alone (R94; what the host does between two responses is this file's, notes/assumptions/10.md). -/

namespace Sys2Proof.Machine

/-! ## The host and the ends of its run -/

/-- Why a run is aborted. -/
inductive Abort where
  /-- A response had status `FAULT`, with its cause (R276). The CORE is halted. -/
  | faulted (cause : Cause)
  /-- The host could not open the input, so it issued no command (R312: SourceNotFound). -/
  | sourceNotFound
  /-- The frame source gave no frame (R312). The CORE is left as it is, unhalted. -/
  | sourceFailed
  /-- The frame sink did not take a frame (R312). The CORE is left as it is, unhalted. -/
  | sinkFailed
  /-- The next command has no packet, because a number in it does not fit an `XLEN`-bit operand field (R92): the length of a file or of a
  string, or a number of the job, is `2^XLEN` or more. The spec does not say what the host then does; here it issues nothing and its
  run ends (DESIGN CHOICE, notes/assumptions/12.md). -/
  | noOperandField
  /-- The response carries no `R0` where the sequence uses it. No sequence of this file meets this after `OK` responses. -/
  | noR0
  /-- `exec` answered something else than a response packet. No command does (R94); the type `Refusal` has reasons that only `step`
  or an unmodelled command could give. -/
  | noResponse
  deriving DecidableEq, Repr

/-- What a run has done so far: the CORE it drives, and what R276 says an aborted run leaves as it is. -/
structure HostSide where
  /-- The CORE. -/
  core : State
  /-- The response to the latest command of this run (R94). -/
  latest : Option Response
  /-- The frames handed to the sink, in order (R75, R241). -/
  sunk : List Bytes
  /-- The destination filename, once read (R266). -/
  destName : Option Bytes
  /-- The destination file (R69). -/
  dest : Bytes
  deriving DecidableEq, Repr

/-- The host before its first command. -/
def HostSide.start (s : State) : HostSide := { core := s, latest := none, sunk := [], destName := none, dest := [] }

/-- A part of a run: it ends with a value or in an abort, and in both ends leaves what was done (R276: "stays as it is"). -/
abbrev Run (α : Type) := HostSide → HostSide × Except Abort α

/-- The rest of a run, after a part that was not aborted; an abort ends the run ("no retry", R276). -/
def Run.andThen {α β : Type} (part : Run α) (rest : α → Run β) : Run β := fun h =>
  match part h with
  | (h', .ok v) => rest v h'
  | (h', .error a) => (h', .error a)

/-- Parts of a run one after another, one for each element of a list. -/
def Run.each {α : Type} (l : List α) (part : α → Run Unit) : Run Unit :=
  match l with
  | [] => fun h => (h, .ok ())
  | x :: rest => (part x).andThen fun _ => Run.each rest part

/-! ## Issuing commands -/

/-- Issue one command and take its response: `OK`, or the abort that ends the run (R94, R276). A command that has no packet (a number too
wide for its field) is not issued, and the run ends: DESIGN CHOICE, notes/assumptions/12.md. -/
def Run.issue (i : Instr) : Run Unit := fun h =>
  if i.wellFormed h.core.params then
    match exec i h.core with
    | .next t =>
      match t.response with
      | some q =>
        match q.status with
        | .ok => ({ h with core := t, latest := some q }, .ok ())
        | .fault => ({ h with core := t, latest := some q }, .error (.faulted q.cause))
      | none => ({ h with core := t }, .error .noResponse)
    | .fault r => nomatch r
    | .refused _ => (h, .error .noResponse)
  else (h, .error .noOperandField)

/-- The `r0` of the latest response (R94). -/
def HostSide.latestR0 (h : HostSide) : Option Nat := h.latest.bind Response.r0

/-- The host reads `R0` in the latest response. -/
def Run.readR0 : Run Nat := fun h =>
  match h.latestR0 with
  | some v => (h, .ok v)
  | none => (h, .error .noR0)

/-- A command as a sequence writes it: complete, or a raster command whose block size is "`R0`". -/
inductive HostOp where
  | issue (i : Instr)
  /-- `RASTER.ENC mode, R0`: the host copies the `r0` of the previous response (preamble of 45_sequences.md). -/
  | rasterEncR0 (mode : Nat)
  /-- `RASTER.DEC mode, R0`, likewise. -/
  | rasterDecR0 (mode : Nat)
  deriving DecidableEq, Repr

/-- One command of a sequence. -/
def Run.op : HostOp → Run Unit
  | .issue i => Run.issue i
  | .rasterEncR0 mode => Run.readR0.andThen fun e => Run.issue (.rasterEnc mode e)
  | .rasterDecR0 mode => Run.readR0.andThen fun e => Run.issue (.rasterDec mode e)

/-- A sequence of commands in order, up to the first abort (R276). -/
def Run.ops (l : List HostOp) : Run Unit := Run.each l Run.op

/-! ## Pseudo-instructions (R275) -/

/-- `LD.YB len(y), y`. -/
def loadYB (y : Bytes) : HostOp := .issue (.ldYb y.length y)

/-- `SETSTR f, "s"` (R275). -/
def pseudoSetstr (f : Nat) (str : Bytes) : List HostOp := [loadYB str, .issue (.sesSets f)]

/-- `SESSION.ENC m, s, w, h, fs, "c", "name"` (R275). -/
def pseudoSessionEnc (m s w h fs : Nat) (c name : Bytes) : List HostOp :=
  [.issue (.sesSet 0 m), .issue (.sesSet 1 s), .issue (.sesSet 2 w), .issue (.sesSet 3 h), .issue (.sesSet 7 fs)]
    ++ pseudoSetstr 5 c ++ pseudoSetstr 6 name ++ [.issue .chunkBpf, .issue .chunkDerive]

/-- `SESSION.DEC w, h` (R275). -/
def pseudoSessionDec (w h : Nat) : List HostOp := [.issue (.sesSet 2 w), .issue (.sesSet 3 h)]

/-- `HDRFRAME.ENC` (R275). -/
def pseudoHdrframeEnc : List HostOp :=
  [.issue (.chunkMaxblk Config.hdrRequired), .issue .hdrGen, .rasterEncR0 0, .issue .stPx]

/-- `HDRFRAME.DEC frame` (R275). -/
def pseudoHdrframeDec (w h : Nat) (frame : Bytes) : List HostOp :=
  [.issue (.ldPx w h frame), .issue (.chunkMaxblk Config.hdrRequired), .rasterDecR0 0, .issue .hdrParse, .issue .chunkBpf]

/-- `BYTES2PAGE bytes` (R275). -/
def pseudoBytes2page (y : Bytes) : List HostOp := [loadYB y, .issue .pageBuild]

/-- `FRAME.ENC bytes`, the host supplying the session's `MODE` and `PSIZE` (R275). -/
def pseudoFrameEnc (m s : Nat) (y : Bytes) : List HostOp :=
  pseudoBytes2page y ++ [.issue (.rasterEnc m s), .issue .stPx]

/-- `FRAME.DEC i, frame`, the host supplying the session's `MODE` and `PSIZE` (R275). -/
def pseudoFrameDec (m s w h i : Nat) (frame : Bytes) : List HostOp :=
  [.issue (.ldPx w h frame), .issue (.rasterDec m s), .issue (.pageUnpack i), .issue .stYb]

/-! ## The encode pipeline (R260 to R262) -/

/-- What the encoding host starts from (R262), and how its collaborators behave (R312). -/
structure EncodeJob where
  /-- The input file; `none` when the host cannot open it (R312). -/
  file : Option Bytes
  name : Bytes
  mode : Nat
  edge : Nat
  width : Nat
  height : Nat
  /-- `SES.SET FPS` is optional (R262). -/
  fps : Option Nat
  /-- How many frames the sink takes before it fails; `none` when it never fails (R312). -/
  sinkTakes : Option Nat
  deriving DecidableEq, Repr

/-- `Hash(F)` as a string (R270). -/
def hashString (file : Bytes) : Bytes := List.ofFn (Config.hash file)

/-- Init up to `CHUNK.BPF` (R262), the `SES.SET` and `SES.SETS` commands in the order R262 lists them. It allows any order of them, so
which fault ends a run with several bad numbers is the model's choice: DESIGN CHOICE, notes/assumptions/10.md. -/
def encodeInputs (job : EncodeJob) (file : Bytes) : List HostOp :=
  [.issue (.sesSet 0 job.mode), .issue (.sesSet 1 job.edge), .issue (.sesSet 2 job.width), .issue (.sesSet 3 job.height)]
    ++ (job.fps.map fun v => HostOp.issue (.sesSet 4 v)).toList
    ++ [.issue (.sesSet 7 file.length)]
    ++ pseudoSetstr 5 (hashString file) ++ pseudoSetstr 6 job.name ++ [.issue .chunkBpf]

/-- The bytes of payload frame `i`: `F[i*bpf .. min((i+1)*bpf, fs))` (R69, R214). -/
def chunkOf (file : Bytes) (bpf i : Nat) : Bytes := (file.drop (i * bpf)).take bpf

/-- The host hands the frame of the latest response, a `ST.PX`'s, to the sink, which takes it or fails (R262, R312). -/
def Run.sinkFrame (job : EncodeJob) : Run Unit := fun h =>
  match h.latest with
  | some { data := .frame _ _ transfer, .. } =>
    match job.sinkTakes with
    | none => ({ h with sunk := h.sunk ++ [transfer] }, .ok ())
    | some n => if h.sunk.length < n then ({ h with sunk := h.sunk ++ [transfer] }, .ok ()) else (h, .error .sinkFailed)
  | _ => (h, .error .noResponse)

/-- HeaderEmitted and Streaming(i) for `i = 0 .. tf-1`, each frame sunk when it is made, in ascending order (R262, R75 item 1). -/
def encodeFrames (job : EncodeJob) (file : Bytes) (bpf tf : Nat) : Run Unit :=
  ((Run.ops pseudoHdrframeEnc).andThen fun _ => Run.sinkFrame job).andThen fun _ =>
    Run.each (List.range tf) fun i =>
      (Run.ops (pseudoFrameEnc job.mode job.edge (chunkOf file bpf i))).andThen fun _ => Run.sinkFrame job

/-- The encode sequence on an opened file (R262). -/
def encodeOpened (job : EncodeJob) (file : Bytes) : Run Unit :=
  (Run.ops (encodeInputs job file)).andThen fun _ =>
    Run.readR0.andThen fun bpf =>
      (Run.issue .chunkDerive).andThen fun _ =>
        Run.readR0.andThen fun tf => encodeFrames job file bpf tf

/-- The encode run (R262): `ok` is the end *Encode done* of R276, an error is the end *Aborted*; the host's side says in both what was
sunk and how the CORE was left. -/
def encodeRun (job : EncodeJob) (s : State) : HostSide × Except Abort Unit :=
  match job.file with
  | some file => encodeOpened job file (HostSide.start s)
  | none => (HostSide.start s, .error .sourceNotFound)

/-! ## The decode pipeline and the verdict (R264 to R266, R271) -/

/-- The verdict (R271). -/
inductive Verdict where
  | intact
  | corrupted
  deriving DecidableEq, Repr

/-- What the decoding host starts from (R266): the frame source's dimensions and its stream. -/
structure DecodeJob where
  width : Nat
  height : Nat
  /-- The stream's frames; `none` when the host cannot open the input (R312). -/
  stream : Option (List Bytes)
  deriving DecidableEq, Repr

/-- A positional write into the destination file (R69); a gap before it reads as zero bytes (notes/assumptions/10.md). -/
def writeAt (file : Bytes) (offset : Nat) (data : Bytes) : Bytes :=
  file.take offset ++ List.replicate (offset - file.length) 0 ++ data ++ file.drop (offset + data.length)

/-- `intact` when the hash of the file equals the recorded checksum, byte for byte (R271). -/
def verdictOf (file checksum : Bytes) : Verdict := if hashString file = checksum then .intact else .corrupted

/-- Fetch stream frame `k`; a source that has none fails (R312). -/
def Run.fetch (frames : List Bytes) (k : Nat) : Run Bytes := fun h =>
  match frames[k]? with
  | some frame => (h, .ok frame)
  | none => (h, .error .sourceFailed)

/-- ReadHeader up to `CHUNK.BPF`: the dimensions set, then frame 0 fetched and parsed (R265, R266). -/
def decodeHeader (job : DecodeJob) (frames : List Bytes) : Run Unit :=
  (Run.ops (pseudoSessionDec job.width job.height)).andThen fun _ =>
    (Run.fetch frames 0).andThen fun frame => Run.ops (pseudoHdrframeDec job.width job.height frame)

/-- `SES.GET f`, its value read from the response (R266). -/
def Run.getScalar (f : Nat) : Run Nat := (Run.issue (.sesGet f)).andThen fun _ => Run.readR0

/-- The bytes the latest response, a `ST.YB`'s, carries. -/
def Run.readBytes : Run Bytes := fun h =>
  match h.latest with
  | some { data := .bytes y, .. } => (h, .ok y)
  | _ => (h, .error .noResponse)

/-- `SES.GETS f` then `ST.YB` (R266). -/
def Run.getString (f : Nat) : Run Bytes :=
  (Run.ops [.issue (.sesGets f), .issue .stYb]).andThen fun _ => Run.readBytes

/-- The host writes bytes at an offset of the destination file (R69, R266). -/
def Run.writeDest (offset : Nat) (data : Bytes) : Run Unit := fun h => ({ h with dest := writeAt h.dest offset data }, .ok ())

/-- Reconstruct(i): stream frame `i+1` is payload frame `i` (R69); its bytes are written at the offset in `r0` (R266). -/
def reconstruct (job : DecodeJob) (frames : List Bytes) (m e i : Nat) : Run Unit :=
  (Run.fetch frames (i + 1)).andThen fun frame =>
    (Run.ops (pseudoFrameDec m e job.width job.height i frame)).andThen fun _ =>
      Run.readR0.andThen fun offset => Run.readBytes.andThen fun data => Run.writeDest offset data

/-- The rest of ReadHeader: the mode, the block size and the number of frames, in this order, and the destination filename (R266). -/
def decodeSession : Run (Nat × Nat × Nat) :=
  (Run.getScalar 0).andThen fun m => (Run.getScalar 1).andThen fun e => (Run.getScalar 10).andThen fun tf =>
    (Run.getString 6).andThen fun name => fun h => ({ h with destName := some name }, .ok (m, e, tf))

/-- Verify: the recorded checksum against the hash of the destination file (R266, R271). It never aborts because of the verdict. -/
def verify : Run Verdict :=
  (Run.getString 5).andThen fun checksum => fun h => (h, .ok (verdictOf h.dest checksum))

/-- The decode sequence on an opened stream (R266). The order of Reconstruct(i) is an argument, because R266 and R75 leave it to the
host ("in any order"): `order tf` lists the frame indices, and the host's obligation is that it is a permutation of `0 .. tf-1` (R267).
The order decides which fault ends a bad stream. -/
def decodeOpened (job : DecodeJob) (order : Nat → List Nat) (frames : List Bytes) : Run Verdict :=
  (decodeHeader job frames).andThen fun _ =>
    decodeSession.andThen fun (m, e, tf) =>
      (Run.each (order tf) (reconstruct job frames m e)).andThen fun _ => verify

/-- The decode run (R266): `ok` is the end *Decode done* of R276 with its verdict, an error is the end *Aborted*; the host's side says in
both what was written to the destination file and how the CORE was left. -/
def decodeRun (job : DecodeJob) (order : Nat → List Nat) (s : State) : HostSide × Except Abort Verdict :=
  match job.stream with
  | some frames => decodeOpened job order frames (HostSide.start s)
  | none => (HostSide.start s, .error .sourceNotFound)

end Sys2Proof.Machine
end

