-- ==== Sys2Proof/Safety.lean ====
section
/-! DEFINITION. The terms the claims use: what a response leaves behind, the packet of a command written out from spec rule R92, which
commands write which register (R21, R35), and the invariant of the reachable states (R37). -/

namespace Sys2Proof.Machine

/-! ## The three ends of a command, written out -/

/-- `t` with the response of a completed command: `OK`, cause 0, the `R0` of `t` (R94). -/
def answersOk (t : State) (data : ResponseData) : State :=
  { t with response := some { status := .ok, cause := .noFault, r0 := t.r0, data := data } }

/-- The state after a fault with cause `c` in state `s`: only `FAULT`, `HALT` and the response differ (R300). -/
def answersFault (s : State) (c : Cause) : State :=
  { s with halt := true, fault := c, response := some { status := .fault, cause := c, r0 := s.r0, data := .absent } }

/-- The state after a halted CORE refused a command: only the response differs, and it repeats the stored cause (R302). -/
def answersRefused (s : State) : State :=
  { s with response := some { status := .fault, cause := s.fault, r0 := s.r0, data := .absent } }

/-- The packet `[cmd | fields | data]` of R92, every field most significant bit first. -/
def packet (cfg : Params) (cmd : Nat) (fields : List Nat) (data : Bits) : Bits :=
  decToBin cmd 8 ++ (fields.flatMap (fun a => decToBin a cfg.xlen) ++ data)

/-- The 26 `cmd` values of R95. -/
def commandWords : List Byte :=
  [0x10, 0x11, 0x12, 0x13, 0x14, 0x15, 0x20, 0x21, 0x30, 0x31, 0x32, 0x40, 0x41, 0x42, 0x43, 0x44,
    0x50, 0x51, 0x52, 0x53, 0x54, 0x55, 0x56, 0x57, 0x58, 0x59]

/-! ## Who writes what (R21, R35, R36) -/

/-- The commands R21 lists as writers of `BB`. -/
def writesBB : Instr → Bool
  | .dec2bin _ _ | .byte2bits _ | .hdrGen | .rasterDec _ _ | .pageBuild | .ldBb _ _ => true
  | _ => false

/-- The commands R21 lists as writers of `YB`. -/
def writesYB : Instr → Bool
  | .pages2bytes | .bin2str | .pageUnpack _ | .sesGets _ | .ldYb _ _ => true
  | _ => false

/-- The commands R21 lists as writers of `PX`. -/
def writesPX : Instr → Bool
  | .rasterEnc _ _ | .ldPx _ _ _ => true
  | _ => false

/-- The commands R21 lists as writers of `R0`. -/
def writesR0 : Instr → Bool
  | .bin2dec | .bits2byte | .rasterCap _ _ | .chunkBpf | .chunkMaxblk _ | .chunkDerive | .pageUnpack _ | .sesGet _ => true
  | _ => false

/-- The commands R35 lists as writers of a session field. -/
def writesSession : Instr → Bool
  | .sesSet _ _ | .sesSets _ | .chunkBpf | .chunkDerive | .hdrParse => true
  | _ => false

/-- The commands that set `SEALED` (R27, R36). -/
def sealsSession : Instr → Bool
  | .chunkDerive | .hdrParse => true
  | _ => false

/-! ## The invariant of the reachable states (R37) -/

/-- A set `BPF` is at least 1 and is `bytes_per_frame` of the set `MODE`, `PSIZE`, `W`, `H` (R37). -/
def Srf.BpfSound (r : Srf) : Prop :=
  ∀ b, r.bpf = some b → 1 ≤ b ∧ ∃ m d e w h, r.mode = some m ∧ m.density = .ok d ∧ r.psize = some e ∧ r.w = some w ∧
    r.h = some h ∧ bytesPerFrame d e w h = .ok b

/-- What a seal from `CHUNK.DERIVE` leaves: `TFRAMES = ceil(FSIZE / BPF)`, `UNUSED = BPF*TFRAMES - FSIZE < BPF` (R37). -/
def Srf.Derived (r : Srf) : Prop :=
  ∃ fs b tf un, r.fsize = some fs ∧ r.bpf = some b ∧ r.tframes = some tf ∧ r.unused = some un ∧
    tf = (fs + b - 1) / b ∧ un + fs = b * tf ∧ un < b

/-- What a seal from `HDR.PARSE` leaves: `TFRAMES` and `UNUSED` below `2^32`, `PSIZE` below `2^8`, `MODE` set (R37), and the two strings
no longer than their header fields and free of 0x00 (R156). -/
def Srf.Parsed (r : Srf) : Prop :=
  ∃ m c n p un tf, r.mode = some m ∧ r.checksum = some c ∧ r.fname = some n ∧ r.psize = some p ∧ r.unused = some un ∧
    r.tframes = some tf ∧ c.length ≤ 64 ∧ (0 : Byte) ∉ c ∧ n.length ≤ 32 ∧ (0 : Byte) ∉ n ∧ p < 2 ^ 8 ∧
    un < 2 ^ 32 ∧ tf < 2 ^ 32

/-- The parameters meet R8's constraints and every register is within its width: scalar session fields and `R0` (R8, R26, R30), the
strings (R32; they came out of a buffer, R24), the buffers (R23, R24), the frame's dimensions and its pixels (R25). -/
structure State.Sized (s : State) : Prop where
  paramsValid : s.params.Valid
  psizeFits : ∀ v, s.srf.psize = some v → v < 2 ^ s.params.dimBits
  wFits : ∀ v, s.srf.w = some v → v < 2 ^ s.params.dimBits
  hFits : ∀ v, s.srf.h = some v → v < 2 ^ s.params.dimBits
  fpsFits : ∀ v, s.srf.fps = some v → v < 2 ^ s.params.dimBits
  checksumFits : ∀ c, s.srf.checksum = some c → c.length ≤ s.params.strMax ∧ fitsBuffer s.params c.length = true
  fnameFits : ∀ n, s.srf.fname = some n → n.length ≤ s.params.strMax ∧ fitsBuffer s.params n.length = true
  fsizeFits : ∀ v, s.srf.fsize = some v → v < 2 ^ s.params.xlen
  bpfFits : ∀ v, s.srf.bpf = some v → v < 2 ^ s.params.xlen
  unusedFits : ∀ v, s.srf.unused = some v → v < 2 ^ s.params.xlen
  tframesFits : ∀ v, s.srf.tframes = some v → v < 2 ^ s.params.xlen
  bbFits : fitsBuffer s.params s.bb.length = true
  ybFits : fitsBuffer s.params s.yb.length = true
  frameFits : ∀ f, s.px = some f → f.w < 2 ^ s.params.dimBits ∧ f.h < 2 ^ s.params.dimBits ∧ f.pixels.length = f.w * f.h
  r0Fits : ∀ v, s.r0 = some v → v < 2 ^ s.params.xlen

/-- The invariant: R37, with the register sizes and the agreement of the last response with the state (R94). -/
structure StateInv (s : State) : Prop where
  sized : s.Sized
  bpfSound : s.srf.BpfSound
  framesWithUnused : s.srf.tframes.isSome = s.srf.unused.isSome
  framesSealed : s.srf.tframes.isSome = true → s.sealed = true
  sealOrigin : s.sealed = true → s.srf.Derived ∨ s.srf.Parsed
  haltWithFault : s.halt = true ↔ s.fault ≠ .noFault
  responseTrue : ∀ q, s.response = some q → q.r0 = s.r0 ∧ q.cause = s.fault ∧ (q.status = .fault ↔ s.halt = true)

end Sys2Proof.Machine
end

