-- ==== Sys2Proof/Certificates/Slice0/Obligations.lean ====
section
/-! DEFINITION. The statements for the provers, from the numbered rules of spec/. A statement of a command's result is an equation
`exec i s = .next (answersOk { s with … } data)`: it names every register the command writes, so it is the command's frame and its
completion as well. `answersOk`, `answersFault`, `answersRefused` and `packet` are written out in Sys2Proof/Safety.lean. -/

open Sys2Proof Sys2Proof.Machine

/-! ## Packets and steps -/

/-- Decoding the packet of a well-formed command gives the command back, every operand at every value (R91, R92, R95; the order of
a field's bits is the model's reading, notes/assumptions/3.md). -/
def Obligations.DecodeOfEncode : Prop :=
  ∀ (cfg : Params) (i : Instr), i.wellFormed cfg = true → decode cfg (encode cfg i) = .ok i

/-- A packet that decodes is the packet of the one well-formed command it decodes to (R91, R92, R95; notes/assumptions/3.md). -/
def Obligations.EncodeOfDecode : Prop :=
  ∀ (cfg : Params) (p : Bits) (i : Instr), decode cfg p = .ok i → i.wellFormed cfg = true ∧ encode cfg i = p

/-- Packets written out field by field decode to the commands they stand for (R92, R95; the bit order is the model's reading,
notes/assumptions/3.md). -/
def Obligations.SampleWordsDecode : Prop :=
  let cfg := Params.defaults
  decode cfg (packet cfg 0x20 [] []) = .ok .hdrGen ∧
  decode cfg (packet cfg 0x41 [844] []) = .ok (.chunkMaxblk 844) ∧
  decode cfg (packet cfg 0x50 [2, 32] []) = .ok (.sesSet 2 32) ∧
  decode cfg (packet cfg 0x54 [3] [true, false, true]) = .ok (.ldBb 3 [true, false, true]) ∧
  decode cfg (packet cfg 0x10 [5, 8] []) = .ok (.dec2bin 5 8) ∧
  decode cfg (packet cfg 0x30 [2, 10] []) = .ok (.rasterCap 2 10) ∧
  decode cfg (packet cfg 0x31 [0, 4] []) = .ok (.rasterEnc 0 4) ∧
  decode cfg (packet cfg 0x32 [0, 1] []) = .ok (.rasterDec 0 1)

/-- R96: the `cmd` values outside the 26 of R95 raise `IllegalCommand`, and the 26 never do. That `cmd` comes most significant bit first
and that the packet waits in an inbox are the model's, notes/assumptions/3.md and 2.md. -/
def Obligations.IllegalCommandWords : Prop :=
  commandWords.length = 26 ∧ commandWords.Nodup ∧
  (∀ (cmd : Byte) (fields : Bits) (s : State) (rest : List HostEvent), s.halt = false → cmd ∉ commandWords →
    s.inbox = .command (decToBin cmd.toNat 8 ++ fields) :: rest →
    step s = .next (answersFault { s with inbox := rest } .illegalCommand)) ∧
  (∀ (cfg : Params) (cmd other : Byte) (fields : Bits), cmd ∈ commandWords →
    decode cfg (decToBin cmd.toNat 8 ++ fields) ≠ .error (.illegalCommand other))

/-- When the next event's packet decodes, the step is that command's `exec`, the event taken off the inbox (R20, R71; the inbox is the
model's port, notes/assumptions/2.md). -/
def Obligations.StepRunsDecodedCommand : Prop :=
  ∀ (s : State) (p : Bits) (i : Instr) (rest : List HostEvent), s.inbox = .command p :: rest → decode s.params p = .ok i →
    step s = exec i { s with inbox := rest }

/-- The model's choices: with no event pending a step changes nothing (notes/assumptions/2.md); a bit sequence that is no packet
stops the model by name (notes/assumptions/4.md). -/
def Obligations.StepIdlesOrRefusesMalformed : Prop :=
  (∀ s : State, s.inbox = [] → step s = .next s) ∧
  (∀ (s : State) (p : Bits) (why : Malformed) (rest : List HostEvent), s.halt = false → s.inbox = .command p :: rest →
    decode s.params p = .error (.malformed why) → step s = .refused (.malformedPacket why))

/-- R302: a halted CORE refuses every command, legal or not; only the response differs, and it repeats the stored cause. The
inbox an undecoded packet waits in is the model's port, notes/assumptions/2.md. -/
def Obligations.HaltedCoreRefusesEverything : Prop :=
  (∀ (s : State) (p : Bits) (rest : List HostEvent), s.halt = true → s.inbox = .command p :: rest →
    step s = .next (answersRefused { s with inbox := rest })) ∧
  (∀ (i : Instr) (s : State), s.halt = true → exec i s = .next (answersRefused s))

/-- The reset event puts every register of the CORE to its reset value, halted or not (R330, R40); it keeps the host's further
events and leaves no response, which is the model's choice (notes/assumptions/2.md), and the parameters, which are a constant of the
machine (notes/assumptions/1.md). -/
def Obligations.ResetEventRestoresReset : Prop :=
  ∀ (s : State) (rest : List HostEvent), s.inbox = .reset :: rest →
    step s = .next { State.resetWith s.params with inbox := rest }

/-- R40: the state after reset, whatever the parameters. -/
def Obligations.ResetValues : Prop :=
  ∀ cfg : Params,
    (∀ f : Nat, (State.resetWith cfg).srf.isSet f = false) ∧ (State.resetWith cfg).sealed = false ∧
    (State.resetWith cfg).bb = [] ∧ (State.resetWith cfg).yb = [] ∧ (State.resetWith cfg).pxValid = false ∧
    (State.resetWith cfg).r0Valid = false ∧ (State.resetWith cfg).halt = false ∧ (State.resetWith cfg).fault.code = 0

/-- The invariant of R37 holds after reset, for all parameters that meet the constraints of R8; the defaults do. -/
def Obligations.ResetMeetsInvariant : Prop :=
  (∀ cfg : Params, cfg.Valid → StateInv (State.resetWith cfg)) ∧ StateInv State.reset

/-- Every step keeps the invariant: R37, with R23 to R25, R30, R32, R94; what it says of the port's last response rests on
notes/assumptions/2.md. -/
def Obligations.StepKeepsInvariant : Prop :=
  ∀ s t : State, StateInv s → step s = .next t → StateInv t

/-! ## What every command keeps -/

/-- R300, R15: a command on an unhalted CORE either completes, leaving `HALT` and `FAULT` alone, or faults with nothing else written. -/
def Obligations.CommandsCompleteOrFaultPrecisely : Prop :=
  ∀ (i : Instr) (s : State), s.halt = false →
    (∃ t data, exec i s = .next (answersOk t data) ∧ t.halt = false ∧ t.fault = s.fault ∧ t.inbox = s.inbox) ∨
    (∃ c, c ≠ .noFault ∧ exec i s = .next (answersFault s c))

/-- R36: while `SEALED = 1` no command changes a session field but `BPF`, only `CHUNK.BPF` may write `BPF`, and in a reachable state it
writes the value that `BPF` has. -/
def Obligations.SealedSessionIsImmutable : Prop :=
  ∀ (i : Instr) (s t : State), s.sealed = true → exec i s = .next t →
    t.sealed = true ∧ t.srf = { s.srf with bpf := t.srf.bpf } ∧ (i ≠ .chunkBpf → t.srf = s.srf) ∧
    (StateInv s → ∀ b, s.srf.bpf = some b → t.srf.bpf = some b)

/-- R36: while `SEALED = 1` the four session-writing commands raise `SessionSealed` (a bad selector is tested first, R231, R232). -/
def Obligations.SealedSessionRefusesWriters : Prop :=
  ∀ s : State, s.halt = false → s.sealed = true →
    (∀ f v : Nat, f ∈ [0, 1, 2, 3, 4, 7] → exec (.sesSet f v) s = .next (answersFault s .sessionSealed)) ∧
    (∀ f : Nat, f ∈ [5, 6] → exec (.sesSets f) s = .next (answersFault s .sessionSealed)) ∧
    exec .chunkDerive s = .next (answersFault s .sessionSealed) ∧
    exec .hdrParse s = .next (answersFault s .sessionSealed)

/-- R304: only reset clears `HALT` and `FAULT`; a halted CORE's buffers and session stay as they are (R302). That reset
is an event of the inbox is the model's port, notes/assumptions/2.md. -/
def Obligations.OnlyResetLeavesHalt : Prop :=
  ∀ s t : State, s.halt = true → step s = .next t → (∀ rest, s.inbox ≠ .reset :: rest) →
    t.halt = true ∧ t.fault = s.fault ∧ t.srf = s.srf ∧ t.sealed = s.sealed ∧ t.bb = s.bb ∧ t.yb = s.yb ∧ t.px = s.px ∧
    t.r0 = s.r0

/-- R21, R35, R36: a command that the tables do not list as a writer of a register, of the session or of `SEALED` leaves it alone. -/
def Obligations.RegistersHaveTheirWriters : Prop :=
  ∀ (i : Instr) (s t : State), exec i s = .next t →
    (writesBB i = false → t.bb = s.bb) ∧ (writesYB i = false → t.yb = s.yb) ∧ (writesPX i = false → t.px = s.px) ∧
    (writesR0 i = false → t.r0 = s.r0) ∧ (writesSession i = false → t.srf = s.srf) ∧
    (sealsSession i = false → t.sealed = s.sealed) ∧ t.inbox = s.inbox

/-- R293: the 20 cause codes are 0 to 19, each once, and 0 is no fault. -/
def Obligations.CauseCodes : Prop :=
  (∀ c c' : Cause, c.code = c'.code → c = c') ∧ (∀ n : Nat, n ≤ 19 ↔ ∃ c : Cause, c.code = n) ∧
  Cause.noFault.code = 0 ∧ Cause.illegalCommand.code = 1 ∧ Cause.operandRange.code = 2 ∧ Cause.sessionFieldUnset.code = 3 ∧
  Cause.bufferInvalid.code = 4 ∧ Cause.sessionSealed.code = 5 ∧ Cause.widthTooSmall.code = 6 ∧ Cause.notBinary.code = 7 ∧
  Cause.bitCountNot8.code = 8 ∧ Cause.lengthNotMultipleOf8.code = 9 ∧ Cause.filenameTooLong.code = 10 ∧
  Cause.checksumLength.code = 11 ∧ Cause.unrecognizedVideoType.code = 12 ∧ Cause.unsupportedMode.code = 13 ∧
  Cause.incompatibleDimensions.code = 14 ∧ Cause.capacityExceeded.code = 15 ∧ Cause.headerLengthMismatch.code = 16 ∧
  Cause.frameLengthMismatch.code = 17 ∧ Cause.trimUnderflow.code = 18 ∧ Cause.resultOverflow.code = 19

/-- R110: the closed lookup between modes and codes. -/
def Obligations.VideoTypeLookup : Prop :=
  (∀ m : VideoMode, VideoMode.ofCode m.code = some m ∧ m.code ≤ 4) ∧ (∀ n : Nat, 4 < n → VideoMode.ofCode n = none) ∧
  VideoMode.monochrome.code = 0 ∧ VideoMode.grayscale.code = 1 ∧ VideoMode.color3.code = 2 ∧ VideoMode.color8.code = 3 ∧
  VideoMode.color16.code = 4

/-! ## BitCodec -/

/-- R12: `val(b)` is the sum of `b[i] * 2^(len(b)-1-i)`. -/
def Obligations.BitsValIsTheWeightedSum : Prop :=
  ∀ b : Bits, bitsVal b = ((List.range b.length).map fun i => (b.getD i false).toNat * 2 ^ (b.length - 1 - i)).sum

/-- `DEC2BIN` leaves in `BB` the sequence of length `width` whose value is `value`, bit `k` of weight `2^(width-1-k)` (R130); it
faults with `OperandRange` for a width above `BUF_MAX`, else with `WidthTooSmall` outside that domain (R131).
The packet's bit order is the model's reading, notes/assumptions/3.md. -/
def Obligations.Dec2binWritesTheNumber : Prop :=
  ∀ (value width : Nat) (s : State), s.halt = false →
    encode s.params (.dec2bin value width) = packet s.params 0x10 [value, width] [] ∧
    (fitsBuffer s.params width = false → exec (.dec2bin value width) s = .next (answersFault s .operandRange)) ∧
    (fitsBuffer s.params width = true → 1 ≤ width → value < 2 ^ width →
      ∃ b : Bits, b.length = width ∧ bitsVal b = value ∧
        (∀ k, k < width → b.getD k false = decide (value / 2 ^ (width - 1 - k) % 2 = 1)) ∧
        exec (.dec2bin value width) s = .next (answersOk { s with bb := b } .absent)) ∧
    (fitsBuffer s.params width = true → width = 0 ∨ 2 ^ width ≤ value →
      exec (.dec2bin value width) s = .next (answersFault s .widthTooSmall))

/-- R133: `BIN2DEC`.
The packet's bit order is the model's reading, notes/assumptions/3.md. -/
def Obligations.Bin2decReadsTheNumber : Prop :=
  (∀ cfg : Params, encode cfg .bin2dec = packet cfg 0x11 [] []) ∧
  ∀ s : State, s.halt = false →
    (1 ≤ s.bb.length → bitsVal s.bb < 2 ^ s.params.xlen →
      exec .bin2dec s = .next (answersOk { s with r0 := some (bitsVal s.bb) } .absent)) ∧
    (s.bb.length = 0 ∨ 2 ^ s.params.xlen ≤ bitsVal s.bb → exec .bin2dec s = .next (answersFault s .notBinary))

/-- R135: `BYTE2BITS v`.
The packet's bit order is the model's reading, notes/assumptions/3.md. -/
def Obligations.Byte2bitsWritesEightBits : Prop :=
  ∀ (v : Nat) (s : State), s.halt = false →
    encode s.params (.byte2bits v) = packet s.params 0x12 [v] [] ∧
    (s.params.Valid → v ≤ 255 → ∃ b : Bits, b.length = 8 ∧ bitsVal b = v ∧
      exec (.byte2bits v) s = .next (answersOk { s with bb := b } .absent)) ∧
    (255 < v → exec (.byte2bits v) s = .next (answersFault s .operandRange))

/-- R136: `BITS2BYTE`.
The packet's bit order is the model's reading, notes/assumptions/3.md. -/
def Obligations.Bits2byteReadsEightBits : Prop :=
  (∀ cfg : Params, encode cfg .bits2byte = packet cfg 0x13 [] []) ∧
  ∀ s : State, s.halt = false →
    (s.params.Valid → s.bb.length = 8 →
      exec .bits2byte s = .next (answersOk { s with r0 := some (bitsVal s.bb) } .absent)) ∧
    (s.bb.length ≠ 8 → exec .bits2byte s = .next (answersFault s .bitCountNot8))

/-- R137: `PAGES2BYTES`, byte `k` the value of bits `8k .. 8k+7`.
The packet's bit order is the model's reading, notes/assumptions/3.md. -/
def Obligations.Pages2bytesPacksChunks : Prop :=
  (∀ cfg : Params, encode cfg .pages2bytes = packet cfg 0x14 [] []) ∧
  ∀ s : State, s.halt = false →
    (fitsBuffer s.params s.bb.length = true → s.bb.length % 8 = 0 → ∃ y : Bytes, 8 * y.length = s.bb.length ∧
      (∀ k, k < y.length → (y.getD k 0).toNat = bitsVal (slice s.bb (8 * k) (8 * k + 8))) ∧
      exec .pages2bytes s = .next (answersOk { s with yb := y } .absent)) ∧
    (s.bb.length % 8 ≠ 0 → exec .pages2bytes s = .next (answersFault s .lengthNotMultipleOf8))

/-- R139, R138: `BIN2STR` writes what `PAGES2BYTES` would, less every byte 0x00.
The packet's bit order is the model's reading, notes/assumptions/3.md. -/
def Obligations.Bin2strDropsZeroBytes : Prop :=
  (∀ cfg : Params, encode cfg .bin2str = packet cfg 0x15 [] []) ∧
  ∀ s : State, s.halt = false →
    (fitsBuffer s.params s.bb.length = true → s.bb.length % 8 = 0 → ∃ y : Bytes, exec .pages2bytes s = .next (answersOk { s with yb := y } .absent) ∧
      exec .bin2str s = .next (answersOk { s with yb := y.filter (fun c => c != 0) } .absent)) ∧
    (s.bb.length % 8 ≠ 0 → exec .bin2str s = .next (answersFault s .lengthNotMultipleOf8))

/-- R140: the laws of BitCodec. -/
def Obligations.BitCodecLaws : Prop :=
  (∀ n x : Nat, 1 ≤ n → x < 2 ^ n → (decToBin x n).length = n ∧ bitsVal (decToBin x n) = x) ∧
  (∀ v : Byte, bitsToByte (byteToBits v) = v) ∧
  (∀ b : Bits, b.length = 8 → byteToBits (bitsToByte b) = b) ∧
  (∀ b : Bits, 1 ≤ b.length → decToBin (bitsVal b) b.length = b) ∧
  (∀ y : Bytes, pagesToBytes (bytesToBits y) = y) ∧
  (∀ b : Bits, b.length % 8 = 0 → bytesToBits (pagesToBytes b) = b) ∧
  (∀ (k : Nat) (y : Bytes), binToStr (zeros (8 * k) ++ bytesToBits y) = y.filter (fun c => c != 0) ∧
    (binToStr (zeros (8 * k) ++ bytesToBits y) = y ↔ (0 : Byte) ∉ y))

/-! ## HeaderCodec -/

/-- `HDR.GEN` writes the 844 bits of R100 and R150: type code, checksum, filename right-aligned behind zero bits, block size, unused
bytes, total frames, each at its offset; reserved modes included (R152, R158).
The packet's bit order is the model's reading, notes/assumptions/3.md. -/
def Obligations.HdrGenWritesTheLayout : Prop :=
  (∀ cfg : Params, encode cfg .hdrGen = packet cfg 0x20 [] []) ∧
  ∀ (s : State) (m : VideoMode) (c n : Bytes) (p u f : Nat), s.halt = false → s.params.Valid →
    s.srf.mode = some m → s.srf.checksum = some c → s.srf.fname = some n → s.srf.psize = some p → s.srf.unused = some u →
    s.srf.tframes = some f → c.length = 64 → n.length ≤ 32 → p < 2 ^ 8 → u < 2 ^ 32 → f < 2 ^ 32 →
    ∃ b : Bits, b.length = 844 ∧ bitsVal (slice b 0 4) = m.code ∧
      (∀ k, k < 64 → bitsVal (slice b (4 + 8 * k) (4 + 8 * k + 8)) = (c.getD k 0).toNat) ∧
      slice b 516 (772 - 8 * n.length) = zeros (256 - 8 * n.length) ∧
      (∀ k, k < n.length →
        bitsVal (slice b (772 - 8 * n.length + 8 * k) (772 - 8 * n.length + 8 * k + 8)) = (n.getD k 0).toNat) ∧
      bitsVal (slice b 772 780) = p ∧ bitsVal (slice b 780 812) = u ∧ bitsVal (slice b 812 844) = f ∧
      exec .hdrGen s = .next (answersOk { s with bb := b } .absent)

/-- The faults of `HDR.GEN` in the order of R152. -/
def Obligations.HdrGenFaultsInOrder : Prop :=
  (∀ s : State, s.halt = false →
    s.srf.mode = none ∨ s.srf.checksum = none ∨ s.srf.fname = none ∨ s.srf.psize = none ∨ s.srf.unused = none ∨
      s.srf.tframes = none →
    exec .hdrGen s = .next (answersFault s .sessionFieldUnset)) ∧
  ∀ (s : State) (m : VideoMode) (c n : Bytes) (p u f : Nat), s.halt = false →
    s.srf.mode = some m → s.srf.checksum = some c → s.srf.fname = some n → s.srf.psize = some p → s.srf.unused = some u →
    s.srf.tframes = some f →
    (32 < n.length → exec .hdrGen s = .next (answersFault s .filenameTooLong)) ∧
    (n.length ≤ 32 → c.length ≠ 64 → exec .hdrGen s = .next (answersFault s .checksumLength)) ∧
    (n.length ≤ 32 → c.length = 64 → 2 ^ 8 ≤ p ∨ 2 ^ 32 ≤ u ∨ 2 ^ 32 ≤ f →
      exec .hdrGen s = .next (answersFault s .widthTooSmall))

/-- R155: `HDR.PARSE` writes the six header fields from their bits, clears `set(BPF)` and seals; its three faults in order.
The packet's bit order is the model's reading, notes/assumptions/3.md. -/
def Obligations.HdrParseFillsTheSession : Prop :=
  (∀ cfg : Params, encode cfg .hdrParse = packet cfg 0x21 [] []) ∧
  ∀ s : State, s.halt = false →
    (s.sealed = true → exec .hdrParse s = .next (answersFault s .sessionSealed)) ∧
    (s.sealed = false → s.bb.length < 844 → exec .hdrParse s = .next (answersFault s .headerLengthMismatch)) ∧
    (s.sealed = false → 844 ≤ s.bb.length → 4 < bitsVal (slice s.bb 0 4) →
      exec .hdrParse s = .next (answersFault s .unrecognizedVideoType)) ∧
    (s.sealed = false → 844 ≤ s.bb.length → bitsVal (slice s.bb 0 4) ≤ 4 →
      ∃ m : VideoMode, m.code = bitsVal (slice s.bb 0 4) ∧
        exec .hdrParse s = .next (answersOk
          { s with
            srf := { s.srf with
              mode := some m
              checksum := some (binToStr (slice s.bb 4 516))
              fname := some (binToStr (slice s.bb 516 772))
              psize := some (bitsVal (slice s.bb 772 780))
              unused := some (bitsVal (slice s.bb 780 812))
              tframes := some (bitsVal (slice s.bb 812 844))
              bpf := none }
            sealed := true } .absent))

/-- R156: what a successful `HDR.PARSE` leaves in the session. -/
def Obligations.ParsedSessionIsBounded : Prop :=
  ∀ s t : State, s.halt = false → exec .hdrParse s = .next t → t.halt = false →
    t.srf.Parsed ∧ t.sealed = true ∧ t.srf.bpf = none

/-- R157 (and `90_conflicts.md` C2): parsing a generated header, whatever follows it, gives its six fields back, the strings without their
0x00 bytes; so exactly the fields when neither string has one. -/
def Obligations.HeaderRoundTrip : Prop :=
  ∀ (x : Header) (rest : Bits), x.checksum.length = 64 → x.fname.length ≤ 32 → x.psize < 2 ^ 8 → x.unused < 2 ^ 32 →
    x.tframes < 2 ^ 32 →
    headerParse (headerBits x ++ rest) = .ok
      { x with checksum := x.checksum.filter (fun c => c != 0), fname := x.fname.filter (fun c => c != 0) } ∧
    ((0 : Byte) ∉ x.checksum → (0 : Byte) ∉ x.fname → headerParse (headerBits x ++ rest) = .ok x)

/-! ## BlockRaster -/

/-- R177: `RASTER.CAP` on an implemented mode and a tiling geometry; `ResultOverflow` for a capacity of `2^XLEN` or more (R298).
The packet's bit order is the model's reading, notes/assumptions/3.md. -/
def Obligations.RasterCapCountsBits : Prop :=
  ∀ (mode edge : Nat) (s : State) (w h : Nat) (bpb : Nat), s.halt = false →
    (mode = 0 ∧ bpb = 1) ∨ (mode = 2 ∧ bpb = 3) → edge < 2 ^ s.params.dimBits →
    s.srf.w = some w → s.srf.h = some h → 1 ≤ edge → 1 ≤ w → 1 ≤ h →
    w % edge = 0 → h % edge = 0 →
    encode s.params (.rasterCap mode edge) = packet s.params 0x30 [mode, edge] [] ∧
    (2 ^ s.params.xlen ≤ w / edge * (h / edge) * bpb →
      exec (.rasterCap mode edge) s = .next (answersFault s .resultOverflow)) ∧
    (w / edge * (h / edge) * bpb < 2 ^ s.params.xlen →
      exec (.rasterCap mode edge) s = .next (answersOk { s with r0 := some (w / edge * (h / edge) * bpb) } .absent))

/-- The faults common to the three raster commands, in the order of R175, R176 and R177: block size range, unrecognized mode, reserved
mode, unset dimension, geometry. -/
def Obligations.RasterFaultsInOrder : Prop :=
  ∀ (mode edge : Nat) (s : State) (i : Instr), s.halt = false →
    i ∈ [Instr.rasterCap mode edge, .rasterEnc mode edge, .rasterDec mode edge] →
    (2 ^ s.params.dimBits ≤ edge → exec i s = .next (answersFault s .operandRange)) ∧
    (edge < 2 ^ s.params.dimBits →
      (4 < mode → exec i s = .next (answersFault s .unrecognizedVideoType)) ∧
      (mode = 1 ∨ mode = 3 ∨ mode = 4 → exec i s = .next (answersFault s .unsupportedMode)) ∧
      (mode = 0 ∨ mode = 2 →
        (s.srf.w = none ∨ s.srf.h = none → exec i s = .next (answersFault s .sessionFieldUnset)) ∧
        (∀ w h : Nat, s.srf.w = some w → s.srf.h = some h →
          edge = 0 ∨ w = 0 ∨ h = 0 ∨ w % edge ≠ 0 ∨ h % edge ≠ 0 →
          exec i s = .next (answersFault s .incompatibleDimensions))))

/-- R178, R173: `RASTER.ENC` paints every pixel of every block with the block's bits, the page padded with zero bits, and refuses a
`BB` longer than the capacity.
The packet's bit order is the model's reading, notes/assumptions/3.md. -/
def Obligations.RasterEncPaintsBlocks : Prop :=
  ∀ (mode edge : Nat) (s : State) (w h : Nat) (bpb : Nat), s.halt = false →
    (mode = 0 ∧ bpb = 1) ∨ (mode = 2 ∧ bpb = 3) → edge < 2 ^ s.params.dimBits →
    s.srf.w = some w → s.srf.h = some h → 1 ≤ edge → 1 ≤ w → 1 ≤ h →
    w % edge = 0 → h % edge = 0 →
    encode s.params (.rasterEnc mode edge) = packet s.params 0x31 [mode, edge] [] ∧
    (w / edge * (h / edge) * bpb < s.bb.length →
      exec (.rasterEnc mode edge) s = .next (answersFault s .capacityExceeded)) ∧
    (s.bb.length ≤ w / edge * (h / edge) * bpb →
      ∃ f : Frame, f.w = w ∧ f.h = h ∧ f.pixels.length = w * h ∧
        (∀ n dx dy, n < w / edge * (h / edge) → dx < edge → dy < edge →
          let px := f.pixel (n % (w / edge) * edge + dx) (n / (w / edge) * edge + dy)
          let level := fun k => if s.bb.getD k false then (255 : Byte) else 0
          (bpb = 1 → px = { r := level n, g := level n, b := level n }) ∧
          (bpb = 3 → px = { r := level (3 * n), g := level (3 * n + 1), b := level (3 * n + 2) })) ∧
        exec (.rasterEnc mode edge) s = .next (answersOk { s with px := some f } .absent))

/-- R182, R174, R180, R181: `RASTER.DEC` reads each block's centre pixel; an invalid `PX` and a frame of another size fault, and so
does a capacity above `BUF_MAX` (R298). The packet's bit order is the model's reading, notes/assumptions/3.md. -/
def Obligations.RasterDecSamplesCentres : Prop :=
  ∀ (mode edge : Nat) (s : State) (w h : Nat) (bpb : Nat), s.halt = false →
    (mode = 0 ∧ bpb = 1) ∨ (mode = 2 ∧ bpb = 3) → edge < 2 ^ s.params.dimBits →
    s.srf.w = some w → s.srf.h = some h → 1 ≤ edge → 1 ≤ w → 1 ≤ h →
    w % edge = 0 → h % edge = 0 →
    encode s.params (.rasterDec mode edge) = packet s.params 0x32 [mode, edge] [] ∧
    (s.px = none → exec (.rasterDec mode edge) s = .next (answersFault s .bufferInvalid)) ∧
    (∀ f : Frame, s.px = some f → f.w ≠ w ∨ f.h ≠ h →
      exec (.rasterDec mode edge) s = .next (answersFault s .frameLengthMismatch)) ∧
    (∀ f : Frame, s.px = some f → f.w = w → f.h = h → fitsBuffer s.params (w / edge * (h / edge) * bpb) = false →
      exec (.rasterDec mode edge) s = .next (answersFault s .resultOverflow)) ∧
    (∀ f : Frame, s.px = some f → f.w = w → f.h = h → fitsBuffer s.params (w / edge * (h / edge) * bpb) = true →
      ∃ b : Bits, b.length = w / edge * (h / edge) * bpb ∧
        (∀ n, n < w / edge * (h / edge) →
          let px := f.pixel (n % (w / edge) * edge + edge / 2)
            (n / (w / edge) * edge + edge / 2)
          (bpb = 1 → b.getD n false = decide (384 ≤ px.r.toNat + px.g.toNat + px.b.toNat)) ∧
          (bpb = 3 → b.getD (3 * n) false = decide (128 ≤ px.r.toNat) ∧
            b.getD (3 * n + 1) false = decide (128 ≤ px.g.toNat) ∧
            b.getD (3 * n + 2) false = decide (128 ≤ px.b.toNat))) ∧
        exec (.rasterDec mode edge) s = .next (answersOk { s with bb := b } .absent))

/-- R183: decoding an encoded page gives the bits back, padded with zeros to the capacity. -/
def Obligations.RasterRoundTrip : Prop :=
  ∀ (g : Raster) (bits : Bits), 1 ≤ g.edge → 1 ≤ g.width → 1 ≤ g.height → g.width % g.edge = 0 →
    g.height % g.edge = 0 → bits.length ≤ g.capacity →
    g.decode (g.encode bits) = bits ++ zeros (g.capacity - bits.length)

/-- R184: a frame whose centre pixels are each less than 127 levels from what encode painted decodes to the same bits. -/
def Obligations.DecodeToleratesSmallShifts : Prop :=
  ∀ (g : Raster) (bits : Bits) (f : Frame), 1 ≤ g.edge → 1 ≤ g.width → 1 ≤ g.height →
    g.width % g.edge = 0 → g.height % g.edge = 0 → bits.length ≤ g.capacity →
    (∀ n, n < g.blocks →
      let p := f.pixel (g.centreX n) (g.centreY n)
      let q := (g.encode bits).pixel (g.centreX n) (g.centreY n)
      (p.r.toNat < q.r.toNat + 127 ∧ q.r.toNat < p.r.toNat + 127) ∧
      (p.g.toNat < q.g.toNat + 127 ∧ q.g.toNat < p.g.toNat + 127) ∧
      (p.b.toNat < q.b.toNat + 127 ∧ q.b.toNat < p.b.toNat + 127)) →
    g.decode f = g.decode (g.encode bits)

/-! ## FrameChunker -/

/-- R202, R201: `CHUNK.BPF`, sealed or not; `ResultOverflow` for a result of `2^XLEN` or more (R298).
The packet's bit order is the model's reading, notes/assumptions/3.md. -/
def Obligations.ChunkBpfComputesBytesPerFrame : Prop :=
  (∀ cfg : Params, encode cfg .chunkBpf = packet cfg 0x40 [] []) ∧
  (∀ s : State, s.halt = false → s.srf.mode = none ∨ s.srf.psize = none ∨ s.srf.w = none ∨ s.srf.h = none →
    exec .chunkBpf s = .next (answersFault s .sessionFieldUnset)) ∧
  ∀ (s : State) (m : VideoMode) (e w h : Nat), s.halt = false → s.srf.mode = some m → s.srf.psize = some e →
    s.srf.w = some w → s.srf.h = some h →
    (m.code = 1 ∨ m.code = 3 ∨ m.code = 4 → exec .chunkBpf s = .next (answersFault s .unsupportedMode)) ∧
    (∀ bpb : Nat, (m.code = 0 ∧ bpb = 1) ∨ (m.code = 2 ∧ bpb = 3) →
      (e = 0 ∨ w = 0 ∨ h = 0 ∨ w * h * bpb % (e * e) ≠ 0 ∨
          w * h * bpb / (e * e) % 8 ≠ 0 →
        exec .chunkBpf s = .next (answersFault s .incompatibleDimensions)) ∧
      (1 ≤ e → 1 ≤ w → 1 ≤ h → w * h * bpb % (e * e) = 0 →
        w * h * bpb / (e * e) % 8 = 0 →
        ∃ v : Nat, v = w * h * bpb / (e * e) / 8 ∧ 1 ≤ v ∧
          (2 ^ s.params.xlen ≤ v → exec .chunkBpf s = .next (answersFault s .resultOverflow)) ∧
          (v < 2 ^ s.params.xlen →
            exec .chunkBpf s = .next (answersOk { s with srf := { s.srf with bpf := some v }, r0 := some v } .absent))))

/-- R203: when the block size tiles the frame, a frame's capacity in bits is eight times its bytes. -/
def Obligations.CapacityIsEightBytesPerFrame : Prop :=
  ∀ (d : Density) (edge v : Nat) (w h : Nat), w % edge = 0 → h % edge = 0 →
    bytesPerFrame d edge w h = .ok v →
    8 * v = Raster.capacity { density := d, edge := edge, width := w, height := h }

/-- R205, R206: `CHUNK.MAXBLK` answers the largest common divisor of `W` and `H` with strictly more blocks than required, and faults
exactly when there is none; its answer fits `R0` because `W` is within its width (`State.Sized`, R8).
The packet's bit order is the model's reading, notes/assumptions/3.md. -/
def Obligations.ChunkMaxblkFindsTheLargest : Prop :=
  ∀ (required : Nat) (s : State), s.halt = false →
    encode s.params (.chunkMaxblk required) = packet s.params 0x41 [required] [] ∧
    (s.srf.w = none ∨ s.srf.h = none → exec (.chunkMaxblk required) s = .next (answersFault s .sessionFieldUnset)) ∧
    (∀ w h : Nat, s.srf.w = some w → s.srf.h = some h →
      (w * h ≤ required →
        exec (.chunkMaxblk required) s = .next (answersFault s .incompatibleDimensions)) ∧
      (s.Sized → required < w * h →
        ∃ e : Nat, 1 ≤ e ∧ e ≤ Nat.gcd w h ∧ w % e = 0 ∧ h % e = 0 ∧
          required < w * h / (e * e) ∧
          required + 1 ≤ w / e * (h / e) ∧
          (∀ k : Nat, e < k → w % k = 0 → h % k = 0 →
            w * h / (k * k) ≤ required) ∧
          exec (.chunkMaxblk required) s = .next (answersOk { s with r0 := some e } .absent)))

/-- R208, R207: `CHUNK.DERIVE` writes `TFRAMES = ceil(FSIZE / BPF)` and `UNUSED = BPF*TFRAMES - FSIZE`, below `BPF`, and seals; it needs
an unsealed session with every encode-side field set (`BPF` is at least 1 whenever set, R37; both results fit because `FSIZE` and `BPF`
are within their widths, `State.Sized`, R8).
The packet's bit order is the model's reading, notes/assumptions/3.md. -/
def Obligations.ChunkDeriveSealsTheSession : Prop :=
  (∀ cfg : Params, encode cfg .chunkDerive = packet cfg 0x42 [] []) ∧
  (∀ s : State, s.halt = false → s.sealed = true → exec .chunkDerive s = .next (answersFault s .sessionSealed)) ∧
  (∀ s : State, s.halt = false → s.sealed = false →
    s.srf.mode = none ∨ s.srf.psize = none ∨ s.srf.w = none ∨ s.srf.h = none ∨ s.srf.checksum = none ∨
      s.srf.fname = none ∨ s.srf.fsize = none ∨ s.srf.bpf = none →
    exec .chunkDerive s = .next (answersFault s .sessionFieldUnset)) ∧
  ∀ (s : State) (m : VideoMode) (e w h : Nat) (c n : Bytes) (fs b : Nat), s.halt = false → s.Sized → s.sealed = false →
    s.srf.mode = some m → s.srf.psize = some e → s.srf.w = some w → s.srf.h = some h → s.srf.checksum = some c →
    s.srf.fname = some n → s.srf.fsize = some fs → s.srf.bpf = some b → 1 ≤ b →
    ∃ tf un : Nat, tf = (fs + b - 1) / b ∧ un + fs = b * tf ∧
      un < b ∧ (un = 0 ↔ fs % b = 0) ∧
      exec .chunkDerive s = .next (answersOk
        { s with srf := { s.srf with tframes := some tf, unused := some un }, sealed := true, r0 := some tf } .absent)

/-- R211, R210: `PAGE.BUILD` writes the bytes' bits and pads with zero bits to `8*BPF`, which must not exceed `BUF_MAX` (R298).
The packet's bit order is the model's reading, notes/assumptions/3.md. -/
def Obligations.PageBuildPadsThePage : Prop :=
  (∀ cfg : Params, encode cfg .pageBuild = packet cfg 0x43 [] []) ∧
  ∀ s : State, s.halt = false →
    (s.srf.bpf = none → exec .pageBuild s = .next (answersFault s .sessionFieldUnset)) ∧
    (∀ b : Nat, s.srf.bpf = some b →
      (b < s.yb.length → exec .pageBuild s = .next (answersFault s .capacityExceeded)) ∧
      (s.yb.length ≤ b → fitsBuffer s.params (8 * b) = false → exec .pageBuild s = .next (answersFault s .resultOverflow)) ∧
      (s.yb.length ≤ b → fitsBuffer s.params (8 * b) = true → ∃ p : Bits, p.length = 8 * b ∧
        (∀ k, k < s.yb.length → bitsVal (slice p (8 * k) (8 * k + 8)) = (s.yb.getD k 0).toNat) ∧
        slice p (8 * s.yb.length) (8 * b) = zeros (8 * (b - s.yb.length)) ∧
        exec .pageBuild s = .next (answersOk { s with bb := p } .absent)))

/-- R213, R212: `PAGE.UNPACK i` checks the index and the length, trims the final frame and answers the offset.
The packet's bit order is the model's reading, notes/assumptions/3.md. -/
def Obligations.PageUnpackTrimsAndLocates : Prop :=
  ∀ (i : Nat) (s : State), s.halt = false →
    encode s.params (.pageUnpack i) = packet s.params 0x44 [i] [] ∧
    (s.srf.bpf = none ∨ s.srf.tframes = none ∨ s.srf.unused = none →
      exec (.pageUnpack i) s = .next (answersFault s .sessionFieldUnset)) ∧
    (∀ b tf un : Nat, s.srf.bpf = some b → s.srf.tframes = some tf → s.srf.unused = some un →
      (tf ≤ i → exec (.pageUnpack i) s = .next (answersFault s .operandRange)) ∧
      (i < tf → s.bb.length ≠ 8 * b →
        exec (.pageUnpack i) s = .next (answersFault s .frameLengthMismatch)) ∧
      (i < tf → s.bb.length = 8 * b →
        (i + 1 = tf → b < un →
          exec (.pageUnpack i) s = .next (answersFault s .trimUnderflow)) ∧
        (∀ keep : Nat, (i + 1 < tf ∧ keep = b) ∨ (i + 1 = tf ∧ keep + un = b) →
          (2 ^ s.params.xlen ≤ i * b → exec (.pageUnpack i) s = .next (answersFault s .resultOverflow)) ∧
          (fitsBuffer s.params s.bb.length = true → i * b < 2 ^ s.params.xlen →
            ∃ y : Bytes, y.length = keep ∧
              (∀ k, k < keep → (y.getD k 0).toNat = bitsVal (slice s.bb (8 * k) (8 * k + 8))) ∧
              exec (.pageUnpack i) s = .next (answersOk { s with yb := y, r0 := some (i * b) } .absent)))))

/-- R214: a file's chunks have the frames' lengths, each page unpacks to its chunk at its offset, the chunks joined are the file, and
their byte ranges are disjoint and cover it. -/
def Obligations.ChunkingRoundTrip : Prop :=
  ∀ (file : Bytes) (bpf : Nat), 1 ≤ bpf →
    let tf := totalFrames file.length bpf
    let un := unusedBytes file.length bpf
    let chunk := fun i => (file.drop (i * bpf)).take bpf
    (∀ i, i < tf → ∃ keep, keptBytes bpf tf un i = .ok keep ∧ (chunk i).length = keep ∧
      pagesToBytes ((buildPage (chunk i) bpf).take (8 * keep)) = chunk i ∧
      frameOffset bpf i + keep ≤ file.length ∧
      (∀ j, i < j → frameOffset bpf i + keep ≤ frameOffset bpf j)) ∧
    (∀ p, p < file.length → ∃ i keep, i < tf ∧ keptBytes bpf tf un i = .ok keep ∧ frameOffset bpf i ≤ p ∧
      p < frameOffset bpf i + keep) ∧
    (List.range tf).flatMap chunk = file

/-- R215: in the states the invariant allows, no command raises `ResultOverflow` at the default parameters. -/
def Obligations.NoResultOverflow : Prop :=
  ∀ (i : Instr) (s t : State), s.params = Params.defaults → StateInv s → s.halt = false → exec i s = .next t → t.fault ≠ .resultOverflow

/-! ## Host interface -/

/-- R231: `SES.SET f, v`. That `FSIZE` (`f = 7`) takes a `v` of `2^XLEN` or more is the model's choice for a term that no packet carries,
notes/assumptions/11.md; R33 and R231 speak of the `XLEN`-bit ones. The packet's bit order is the model's reading, notes/assumptions/3.md. -/
def Obligations.SesSetWritesTheField : Prop :=
  ∀ (f v : Nat) (s : State), s.halt = false →
    encode s.params (.sesSet f v) = packet s.params 0x50 [f, v] [] ∧
    (f ∉ [0, 1, 2, 3, 4, 7] → exec (.sesSet f v) s = .next (answersFault s .operandRange)) ∧
    (f ∈ [0, 1, 2, 3, 4, 7] → s.sealed = true → exec (.sesSet f v) s = .next (answersFault s .sessionSealed)) ∧
    (s.sealed = false →
      (f = 0 → 4 < v → exec (.sesSet f v) s = .next (answersFault s .unrecognizedVideoType)) ∧
      (f ∈ [1, 2, 3, 4] → 2 ^ s.params.dimBits ≤ v →
        exec (.sesSet f v) s = .next (answersFault s .operandRange)) ∧
      (∀ m : VideoMode, f = 0 → v = m.code →
        exec (.sesSet f v) s = .next (answersOk { s with srf := { s.srf with mode := some m, bpf := none } } .absent)) ∧
      (v < 2 ^ s.params.dimBits →
        (f = 1 →
          exec (.sesSet f v) s = .next (answersOk { s with srf := { s.srf with psize := some v, bpf := none } } .absent)) ∧
        (f = 2 →
          exec (.sesSet f v) s = .next (answersOk { s with srf := { s.srf with w := some v, bpf := none } } .absent)) ∧
        (f = 3 →
          exec (.sesSet f v) s = .next (answersOk { s with srf := { s.srf with h := some v, bpf := none } } .absent)) ∧
        (f = 4 → exec (.sesSet f v) s = .next (answersOk { s with srf := { s.srf with fps := some v } } .absent))) ∧
      (f = 7 → exec (.sesSet f v) s = .next (answersOk { s with srf := { s.srf with fsize := some v } } .absent)))

/-- R232: `SES.SETS f`.
The packet's bit order is the model's reading, notes/assumptions/3.md. -/
def Obligations.SesSetsWritesTheString : Prop :=
  ∀ (f : Nat) (s : State), s.halt = false →
    encode s.params (.sesSets f) = packet s.params 0x51 [f] [] ∧
    (f ≠ 5 → f ≠ 6 → exec (.sesSets f) s = .next (answersFault s .operandRange)) ∧
    (f = 5 ∨ f = 6 →
      (s.sealed = true → exec (.sesSets f) s = .next (answersFault s .sessionSealed)) ∧
      (s.sealed = false → s.params.strMax < s.yb.length → exec (.sesSets f) s = .next (answersFault s .operandRange))) ∧
    (s.sealed = false → s.yb.length ≤ s.params.strMax →
      (f = 5 →
        exec (.sesSets f) s = .next (answersOk { s with srf := { s.srf with checksum := some s.yb } } .absent)) ∧
      (f = 6 → exec (.sesSets f) s = .next (answersOk { s with srf := { s.srf with fname := some s.yb } } .absent)))

/-- R233: `SES.GET f`.
The packet's bit order is the model's reading, notes/assumptions/3.md. -/
def Obligations.SesGetReadsTheField : Prop :=
  ∀ (f : Nat) (s : State), s.halt = false →
    encode s.params (.sesGet f) = packet s.params 0x52 [f] [] ∧
    (f ∉ [0, 1, 2, 3, 4, 7, 8, 9, 10] → exec (.sesGet f) s = .next (answersFault s .operandRange)) ∧
    (f ∈ [0, 1, 2, 3, 4, 7, 8, 9, 10] → s.srf.isSet f = false →
      exec (.sesGet f) s = .next (answersFault s .sessionFieldUnset)) ∧
    (∀ r : Nat, s.Sized →
      (f = 0 ∧ s.srf.mode.map VideoMode.code = some r) ∨
      (f = 1 ∧ s.srf.psize = some r) ∨
      (f = 2 ∧ s.srf.w = some r) ∨
      (f = 3 ∧ s.srf.h = some r) ∨
      (f = 4 ∧ s.srf.fps = some r) ∨
      (f = 7 ∧ s.srf.fsize = some r) ∨ (f = 8 ∧ s.srf.bpf = some r) ∨
      (f = 9 ∧ s.srf.unused = some r) ∨ (f = 10 ∧ s.srf.tframes = some r) →
      exec (.sesGet f) s = .next (answersOk { s with r0 := some r } .absent))

/-- R234: `SES.GETS f`.
The packet's bit order is the model's reading, notes/assumptions/3.md. -/
def Obligations.SesGetsReadsTheString : Prop :=
  ∀ (f : Nat) (s : State), s.halt = false →
    encode s.params (.sesGets f) = packet s.params 0x53 [f] [] ∧
    (f ≠ 5 → f ≠ 6 → exec (.sesGets f) s = .next (answersFault s .operandRange)) ∧
    ((f = 5 ∧ s.srf.checksum = none) ∨ (f = 6 ∧ s.srf.fname = none) →
      exec (.sesGets f) s = .next (answersFault s .sessionFieldUnset)) ∧
    (∀ y : Bytes, s.Sized → (f = 5 ∧ s.srf.checksum = some y) ∨ (f = 6 ∧ s.srf.fname = some y) →
      exec (.sesGets f) s = .next (answersOk { s with yb := y } .absent))

/-- R236 to R239: the loads and stores of `BB` and `YB`; a load of more than `BUF_MAX` units faults.
The packet's bit order is the model's reading, notes/assumptions/3.md. -/
def Obligations.BufferLoadsAndStores : Prop :=
  ∀ s : State, s.halt = false →
    (∀ (n : Nat) (b : Bits), b.length = n →
      encode s.params (.ldBb n b) = packet s.params 0x54 [n] b ∧
      (fitsBuffer s.params n = false → exec (.ldBb n b) s = .next (answersFault s .operandRange)) ∧
      (fitsBuffer s.params n = true → exec (.ldBb n b) s = .next (answersOk { s with bb := b } .absent))) ∧
    (∀ (n : Nat) (y : Bytes), y.length = n →
      encode s.params (.ldYb n y) = packet s.params 0x56 [n] (y.flatMap fun v => decToBin v.toNat 8) ∧
      (fitsBuffer s.params n = false → exec (.ldYb n y) s = .next (answersFault s .operandRange)) ∧
      (fitsBuffer s.params n = true → exec (.ldYb n y) s = .next (answersOk { s with yb := y } .absent))) ∧
    encode s.params .stBb = packet s.params 0x55 [] [] ∧ exec .stBb s = .next (answersOk s (.bits s.bb)) ∧
    encode s.params .stYb = packet s.params 0x57 [] [] ∧ exec .stYb s = .next (answersOk s (.bytes s.yb))

/-- R240, R63: `LD.PX` loads the frame whose pixel `(x, y)` has byte `(y*w + x)*3 + c` as channel `c`.
The packet's bit order is the model's reading, notes/assumptions/3.md. -/
def Obligations.LdPxLoadsTheFrame : Prop :=
  ∀ (w h : Nat) (data : Bytes) (s : State), s.halt = false →
    encode s.params (.ldPx w h data) = packet s.params 0x58 [w, h] (data.flatMap fun v => decToBin v.toNat 8) ∧
    (2 ^ s.params.dimBits ≤ w ∨ 2 ^ s.params.dimBits ≤ h ∨ data.length ≠ w * h * 3 →
      exec (.ldPx w h data) s = .next (answersFault s .operandRange)) ∧
    (w < 2 ^ s.params.dimBits → h < 2 ^ s.params.dimBits → data.length = w * h * 3 →
      ∃ f : Frame, f.w = w ∧ f.h = h ∧ f.pixels.length = w * h ∧
        (∀ x y, x < w → y < h →
          (f.pixel x y).r = data.getD ((y * w + x) * 3) 0 ∧ (f.pixel x y).g = data.getD ((y * w + x) * 3 + 1) 0 ∧
          (f.pixel x y).b = data.getD ((y * w + x) * 3 + 2) 0) ∧
        exec (.ldPx w h data) s = .next (answersOk { s with px := some f } .absent))

/-- R241, R63: `ST.PX` carries the frame out in the same layout; an invalid `PX` faults.
The packet's bit order is the model's reading, notes/assumptions/3.md. -/
def Obligations.StPxCarriesTheFrame : Prop :=
  (∀ cfg : Params, encode cfg .stPx = packet cfg 0x59 [] []) ∧
  (∀ s : State, s.halt = false → s.px = none → exec .stPx s = .next (answersFault s .bufferInvalid)) ∧
  ∀ (s : State) (f : Frame), s.halt = false → s.px = some f → f.pixels.length = f.w * f.h →
    ∃ data : Bytes, data.length = f.w * f.h * 3 ∧
      (∀ x y, x < f.w → y < f.h →
        data.getD ((y * f.w + x) * 3) 0 = (f.pixel x y).r ∧ data.getD ((y * f.w + x) * 3 + 1) 0 = (f.pixel x y).g ∧
        data.getD ((y * f.w + x) * 3 + 2) 0 = (f.pixel x y).b) ∧
      exec .stPx s = .next (answersOk s (.frame f.w f.h data))

/-! ## What does not matter -/

/-- R77: what `RASTER.ENC`, `RASTER.DEC`, `PAGE.BUILD` and `PAGE.UNPACK` answer depends on the session, the operands and the input buffer
alone: two unhalted COREs with the same parameters that agree on those both complete, with the same result, or both fault, with the same cause. -/
def Obligations.FrameResultsArePure : Prop :=
  ∀ s u s' u' : State, s.halt = false → u.halt = false → s.params = u.params → s.srf = u.srf → s.fault = u.fault →
    (∀ mode edge : Nat, s.bb = u.bb → exec (.rasterEnc mode edge) s = .next s' → exec (.rasterEnc mode edge) u = .next u' →
      s'.halt = u'.halt ∧ s'.fault = u'.fault ∧ (s'.halt = false → s'.px = u'.px)) ∧
    (∀ mode edge : Nat, s.px = u.px → exec (.rasterDec mode edge) s = .next s' → exec (.rasterDec mode edge) u = .next u' →
      s'.halt = u'.halt ∧ s'.fault = u'.fault ∧ (s'.halt = false → s'.bb = u'.bb)) ∧
    (s.yb = u.yb → exec .pageBuild s = .next s' → exec .pageBuild u = .next u' →
      s'.halt = u'.halt ∧ s'.fault = u'.fault ∧ (s'.halt = false → s'.bb = u'.bb)) ∧
    (∀ i : Nat, s.bb = u.bb → exec (.pageUnpack i) s = .next s' → exec (.pageUnpack i) u = .next u' →
      s'.halt = u'.halt ∧ s'.fault = u'.fault ∧ (s'.halt = false → s'.yb = u'.yb ∧ s'.r0 = u'.r0))

/-- R30: `FPS` is read by no command but `SES.GET`: two states that differ in `FPS` alone still differ in nothing else after any
other command. -/
def Obligations.FpsIsInert : Prop :=
  ∀ (i : Instr) (s t t' : State) (v : Option Nat), (∀ f, i ≠ .sesGet f) → exec i s = .next t →
    exec i { s with srf := { s.srf with fps := v } } = .next t' →
    t' = { t with srf := { t.srf with fps := t'.srf.fps } }

/-! ## Parameters and runs -/

/-- R8: the parameters are fixed for a machine: no command, no fault, no refusal and no reset changes them. That they stand in the state
is the model's choice, notes/assumptions/1.md. -/
def Obligations.ParametersAreFixed : Prop :=
  (∀ s t : State, step s = .next t → t.params = s.params) ∧
  (∀ (i : Instr) (s t : State), exec i s = .next t → t.params = s.params)

/-- R276 and R312 on the host's runs, started on an unhalted CORE. A run that is done leaves the CORE unhalted; a run that a `FAULT` response
aborted leaves it halted with that cause; every other abort (the input, the source, the sink, a number without an operand field) leaves it
unhalted. A done encode run has sunk the header frame and one frame for each of the session's `TFRAMES`; a sink that takes `n` frames never
has more, and has exactly `n` when it fails. An input that cannot be opened means no command at all. What ends a run for a number without
an operand field is the model's choice, notes/assumptions/12.md. That a sink fails after a number of frames that the job gives, and takes a
frame when its `ST.PX` has answered, is the model's choice too, notes/assumptions/10.md: the sink clauses rest on it. -/
def Obligations.RunsEndAsTheSpecSays : Prop :=
  ∀ s : State, s.halt = false →
    (∀ job : EncodeJob,
      let run := encodeRun job s
      (run.2 = .ok () → run.1.core.halt = false ∧
        ∃ tf, run.1.core.srf.tframes = some tf ∧ run.1.sunk.length = tf + 1) ∧
      (∀ c, run.2 = .error (.faulted c) → run.1.core.halt = true ∧ run.1.core.fault = c) ∧
      (∀ a, run.2 = .error a → (∀ c, a ≠ .faulted c) → run.1.core.halt = false) ∧
      (∀ n, job.sinkTakes = some n → run.1.sunk.length ≤ n ∧ (run.2 = .error .sinkFailed → run.1.sunk.length = n)) ∧
      (job.file = none → run.2 = .error .sourceNotFound ∧ run.1.core = s)) ∧
    (∀ (job : DecodeJob) (order : Nat → List Nat),
      let run := decodeRun job order s
      (∀ v, run.2 = .ok v → run.1.core.halt = false) ∧
      (∀ c, run.2 = .error (.faulted c) → run.1.core.halt = true ∧ run.1.core.fault = c) ∧
      (∀ a, run.2 = .error a → (∀ c, a ≠ .faulted c) → run.1.core.halt = false) ∧
      (job.stream = none → run.2 = .error .sourceNotFound ∧ run.1.core = s))
end

