-- ==== Sys2Proof/Laws/Bits.lean ====
section
/-! SUPPORT. Lengths and unfoldings of BitCodec's pure functions. -/

namespace Sys2Proof.Machine

@[simp] theorem zeros_length (n : Nat) : (zeros n).length = n := by simp [zeros]

@[simp] theorem zeros_zero : zeros 0 = [] := rfl

@[simp] theorem decToBin_length (value width : Nat) : (decToBin value width).length = width := by
  induction width with
  | zero => rfl
  | succ n ih => simp [decToBin, ih]

@[simp] theorem byteToBits_length (v : Byte) : (byteToBits v).length = 8 := decToBin_length _ _

@[simp] theorem bytesToBits_nil : bytesToBits [] = [] := rfl

@[simp] theorem bytesToBits_cons (v : Byte) (y : Bytes) : bytesToBits (v :: y) = byteToBits v ++ bytesToBits y := rfl

@[simp] theorem bytesToBits_length (y : Bytes) : (bytesToBits y).length = 8 * y.length := by
  induction y with
  | nil => rfl
  | cons v y ih => simp [ih]; omega

theorem bytesToBits_append (x y : Bytes) : bytesToBits (x ++ y) = bytesToBits x ++ bytesToBits y := by
  simp [bytesToBits]

@[simp] theorem bitsVal_nil : bitsVal [] = 0 := rfl

/-- Horner's scheme from any start. -/
theorem bitsVal_foldl (b : Bits) (acc : Nat) :
    b.foldl (fun acc x => 2 * acc + x.toNat) acc = acc * 2 ^ b.length + bitsVal b := by
  induction b generalizing acc with
  | nil => simp
  | cons x b ih =>
    unfold bitsVal
    simp only [List.foldl_cons, List.length_cons]
    rw [ih, ih (2 * 0 + x.toNat)]
    ring

/-- The sum of R12: the first bit weighs `2^(len - 1)`. -/
@[simp] theorem bitsVal_cons (x : Bool) (b : Bits) : bitsVal (x :: b) = x.toNat * 2 ^ b.length + bitsVal b := by
  have h := bitsVal_foldl b (2 * 0 + x.toNat)
  simpa [bitsVal] using h

theorem bitsVal_append (a b : Bits) : bitsVal (a ++ b) = bitsVal a * 2 ^ b.length + bitsVal b := by
  induction a with
  | nil => simp
  | cons x a ih => simp [ih, pow_add]; ring

/-- `n` bits hold a value below `2^n`. -/
theorem bitsVal_lt (b : Bits) : bitsVal b < 2 ^ b.length := by
  induction b with
  | nil => simp
  | cons x b ih => cases x <;> simp [pow_succ] <;> omega

@[simp] theorem pagesToBytes_nil : pagesToBytes [] = [] := rfl

/-- A whole chunk of 8 bits in front becomes the first byte (R137). -/
theorem pagesToBytes_chunk (c rest : Bits) (h : c.length = 8) : pagesToBytes (c ++ rest) = bitsToByte c :: pagesToBytes rest := by
  match c, h with
  | [_, _, _, _, _, _, _, _], _ => rfl

end Sys2Proof.Machine
end

