-- ==== Sys2Proof/Laws/Config.lean ====
section
/-! SUPPORT. The parameters at the spec's defaults as numerals, the constraints of spec rule R8 that they meet, and what fits a buffer. -/

namespace Sys2Proof

@[simp] theorem Params.defaults_xlen : Params.defaults.xlen = 64 := rfl
@[simp] theorem Params.defaults_dimBits : Params.defaults.dimBits = 16 := rfl
@[simp] theorem Params.defaults_strMax : Params.defaults.strMax = 255 := rfl
@[simp] theorem Params.defaults_bufMax : Params.defaults.bufMax = none := rfl

/-- The defaults meet the constraints of R8. -/
theorem Params.defaults_valid : Params.defaults.Valid :=
  ⟨by decide, by decide, by decide, by decide, fun _ h => nomatch h⟩

/-- A value of a `DIM_BITS`-wide register fits an `XLEN`-wide one (R8). -/
theorem Params.Valid.dim_lt_xlen {cfg : Params} (h : cfg.Valid) {v : Nat} (hv : v < 2 ^ cfg.dimBits) : v < 2 ^ cfg.xlen :=
  lt_of_lt_of_le hv (Nat.pow_le_pow_right (by decide) h.dimBitsMost)

/-- A value of at most 32 bits fits an `XLEN`-wide register (R8). -/
theorem Params.Valid.lt_xlen_of_lt {cfg : Params} (h : cfg.Valid) {v : Nat} (hv : v < 2 ^ 32) : v < 2 ^ cfg.xlen :=
  lt_of_lt_of_le hv (Nat.pow_le_pow_right (by decide) h.xlenLeast)

end Sys2Proof

namespace Sys2Proof.Config

@[simp] theorem headerBits_val : headerBits = 844 := rfl
@[simp] theorem typeBits_val : typeBits = 4 := rfl
@[simp] theorem checksumBits_val : checksumBits = 512 := rfl
@[simp] theorem checksumChars_val : checksumChars = 64 := rfl
@[simp] theorem filenameBits_val : filenameBits = 256 := rfl
@[simp] theorem filenameMax_val : filenameMax = 32 := rfl
@[simp] theorem psizeBits_val : psizeBits = 8 := rfl
@[simp] theorem unusedBits_val : unusedBits = 32 := rfl
@[simp] theorem tframesBits_val : tframesBits = 32 := rfl
@[simp] theorem threshold_val : threshold = 128 := rfl
@[simp] theorem full_val : full = 255 := rfl

/-- The field widths of R7 add up to `HEADER_BITS`. -/
theorem header_fields_add_up :
    typeBits + checksumBits + filenameBits + psizeBits + unusedBits + tframesBits = headerBits := rfl

end Sys2Proof.Config

namespace Sys2Proof.Machine

/-- With `BUF_MAX` unbounded every length fits (R8). -/
theorem fitsBuffer_of_unbounded {cfg : Params} (h : cfg.bufMax = none) (len : Nat) : fitsBuffer cfg len = true := by
  simp [fitsBuffer, h]

/-- What is no longer than something that fits, fits. -/
theorem fitsBuffer_mono {cfg : Params} {a b : Nat} (h : a ≤ b) (hb : fitsBuffer cfg b = true) : fitsBuffer cfg a = true := by
  unfold fitsBuffer at *; split <;> simp_all; omega

/-- A header and everything shorter fits (R8: `BUF_MAX` is at least 844). -/
theorem fitsBuffer_of_le_header {cfg : Params} (h : cfg.Valid) {len : Nat} (hl : len ≤ 844) : fitsBuffer cfg len = true := by
  unfold fitsBuffer; split
  · rfl
  · rename_i m hm; have := h.bufMaxLeast m hm; simp; omega

end Sys2Proof.Machine
end

