-- ==== Sys2Proof/Laws/State.lean ====
section
/-! SUPPORT. One lemma per field per update of the state: no proof unfolds a record update. -/

namespace Sys2Proof.Machine

/-! ## `setSrf` -/

@[simp] theorem State.setSrf_params (s : State) (v : Srf) : (s.setSrf v).params = s.params := rfl
@[simp] theorem State.setSrf_srf (s : State) (v : Srf) : (s.setSrf v).srf = v := rfl
@[simp] theorem State.setSrf_sealed (s : State) (v : Srf) : (s.setSrf v).sealed = s.sealed := rfl
@[simp] theorem State.setSrf_bb (s : State) (v : Srf) : (s.setSrf v).bb = s.bb := rfl
@[simp] theorem State.setSrf_yb (s : State) (v : Srf) : (s.setSrf v).yb = s.yb := rfl
@[simp] theorem State.setSrf_px (s : State) (v : Srf) : (s.setSrf v).px = s.px := rfl
@[simp] theorem State.setSrf_r0 (s : State) (v : Srf) : (s.setSrf v).r0 = s.r0 := rfl
@[simp] theorem State.setSrf_halt (s : State) (v : Srf) : (s.setSrf v).halt = s.halt := rfl
@[simp] theorem State.setSrf_fault (s : State) (v : Srf) : (s.setSrf v).fault = s.fault := rfl
@[simp] theorem State.setSrf_inbox (s : State) (v : Srf) : (s.setSrf v).inbox = s.inbox := rfl
@[simp] theorem State.setSrf_response (s : State) (v : Srf) : (s.setSrf v).response = s.response := rfl

/-! ## `seal` -/

@[simp] theorem State.seal_params (s : State) : (s.seal).params = s.params := rfl
@[simp] theorem State.seal_srf (s : State) : (s.seal).srf = s.srf := rfl
@[simp] theorem State.seal_sealed (s : State) : (s.seal).sealed = true := rfl
@[simp] theorem State.seal_bb (s : State) : (s.seal).bb = s.bb := rfl
@[simp] theorem State.seal_yb (s : State) : (s.seal).yb = s.yb := rfl
@[simp] theorem State.seal_px (s : State) : (s.seal).px = s.px := rfl
@[simp] theorem State.seal_r0 (s : State) : (s.seal).r0 = s.r0 := rfl
@[simp] theorem State.seal_halt (s : State) : (s.seal).halt = s.halt := rfl
@[simp] theorem State.seal_fault (s : State) : (s.seal).fault = s.fault := rfl
@[simp] theorem State.seal_inbox (s : State) : (s.seal).inbox = s.inbox := rfl
@[simp] theorem State.seal_response (s : State) : (s.seal).response = s.response := rfl

/-! ## `setBB` -/

@[simp] theorem State.setBB_params (s : State) (v : Bits) : (s.setBB v).params = s.params := rfl
@[simp] theorem State.setBB_srf (s : State) (v : Bits) : (s.setBB v).srf = s.srf := rfl
@[simp] theorem State.setBB_sealed (s : State) (v : Bits) : (s.setBB v).sealed = s.sealed := rfl
@[simp] theorem State.setBB_bb (s : State) (v : Bits) : (s.setBB v).bb = v := rfl
@[simp] theorem State.setBB_yb (s : State) (v : Bits) : (s.setBB v).yb = s.yb := rfl
@[simp] theorem State.setBB_px (s : State) (v : Bits) : (s.setBB v).px = s.px := rfl
@[simp] theorem State.setBB_r0 (s : State) (v : Bits) : (s.setBB v).r0 = s.r0 := rfl
@[simp] theorem State.setBB_halt (s : State) (v : Bits) : (s.setBB v).halt = s.halt := rfl
@[simp] theorem State.setBB_fault (s : State) (v : Bits) : (s.setBB v).fault = s.fault := rfl
@[simp] theorem State.setBB_inbox (s : State) (v : Bits) : (s.setBB v).inbox = s.inbox := rfl
@[simp] theorem State.setBB_response (s : State) (v : Bits) : (s.setBB v).response = s.response := rfl

/-! ## `setYB` -/

@[simp] theorem State.setYB_params (s : State) (v : Bytes) : (s.setYB v).params = s.params := rfl
@[simp] theorem State.setYB_srf (s : State) (v : Bytes) : (s.setYB v).srf = s.srf := rfl
@[simp] theorem State.setYB_sealed (s : State) (v : Bytes) : (s.setYB v).sealed = s.sealed := rfl
@[simp] theorem State.setYB_bb (s : State) (v : Bytes) : (s.setYB v).bb = s.bb := rfl
@[simp] theorem State.setYB_yb (s : State) (v : Bytes) : (s.setYB v).yb = v := rfl
@[simp] theorem State.setYB_px (s : State) (v : Bytes) : (s.setYB v).px = s.px := rfl
@[simp] theorem State.setYB_r0 (s : State) (v : Bytes) : (s.setYB v).r0 = s.r0 := rfl
@[simp] theorem State.setYB_halt (s : State) (v : Bytes) : (s.setYB v).halt = s.halt := rfl
@[simp] theorem State.setYB_fault (s : State) (v : Bytes) : (s.setYB v).fault = s.fault := rfl
@[simp] theorem State.setYB_inbox (s : State) (v : Bytes) : (s.setYB v).inbox = s.inbox := rfl
@[simp] theorem State.setYB_response (s : State) (v : Bytes) : (s.setYB v).response = s.response := rfl

/-! ## `setPX` -/

@[simp] theorem State.setPX_params (s : State) (v : Frame) : (s.setPX v).params = s.params := rfl
@[simp] theorem State.setPX_srf (s : State) (v : Frame) : (s.setPX v).srf = s.srf := rfl
@[simp] theorem State.setPX_sealed (s : State) (v : Frame) : (s.setPX v).sealed = s.sealed := rfl
@[simp] theorem State.setPX_bb (s : State) (v : Frame) : (s.setPX v).bb = s.bb := rfl
@[simp] theorem State.setPX_yb (s : State) (v : Frame) : (s.setPX v).yb = s.yb := rfl
@[simp] theorem State.setPX_px (s : State) (v : Frame) : (s.setPX v).px = some v := rfl
@[simp] theorem State.setPX_r0 (s : State) (v : Frame) : (s.setPX v).r0 = s.r0 := rfl
@[simp] theorem State.setPX_halt (s : State) (v : Frame) : (s.setPX v).halt = s.halt := rfl
@[simp] theorem State.setPX_fault (s : State) (v : Frame) : (s.setPX v).fault = s.fault := rfl
@[simp] theorem State.setPX_inbox (s : State) (v : Frame) : (s.setPX v).inbox = s.inbox := rfl
@[simp] theorem State.setPX_response (s : State) (v : Frame) : (s.setPX v).response = s.response := rfl

/-! ## `setR0` -/

@[simp] theorem State.setR0_params (s : State) (v : Nat) : (s.setR0 v).params = s.params := rfl
@[simp] theorem State.setR0_srf (s : State) (v : Nat) : (s.setR0 v).srf = s.srf := rfl
@[simp] theorem State.setR0_sealed (s : State) (v : Nat) : (s.setR0 v).sealed = s.sealed := rfl
@[simp] theorem State.setR0_bb (s : State) (v : Nat) : (s.setR0 v).bb = s.bb := rfl
@[simp] theorem State.setR0_yb (s : State) (v : Nat) : (s.setR0 v).yb = s.yb := rfl
@[simp] theorem State.setR0_px (s : State) (v : Nat) : (s.setR0 v).px = s.px := rfl
@[simp] theorem State.setR0_r0 (s : State) (v : Nat) : (s.setR0 v).r0 = some v := rfl
@[simp] theorem State.setR0_halt (s : State) (v : Nat) : (s.setR0 v).halt = s.halt := rfl
@[simp] theorem State.setR0_fault (s : State) (v : Nat) : (s.setR0 v).fault = s.fault := rfl
@[simp] theorem State.setR0_inbox (s : State) (v : Nat) : (s.setR0 v).inbox = s.inbox := rfl
@[simp] theorem State.setR0_response (s : State) (v : Nat) : (s.setR0 v).response = s.response := rfl

/-! ## `respond` -/

@[simp] theorem State.respond_params (s : State) (v : Response) : (s.respond v).params = s.params := rfl
@[simp] theorem State.respond_srf (s : State) (v : Response) : (s.respond v).srf = s.srf := rfl
@[simp] theorem State.respond_sealed (s : State) (v : Response) : (s.respond v).sealed = s.sealed := rfl
@[simp] theorem State.respond_bb (s : State) (v : Response) : (s.respond v).bb = s.bb := rfl
@[simp] theorem State.respond_yb (s : State) (v : Response) : (s.respond v).yb = s.yb := rfl
@[simp] theorem State.respond_px (s : State) (v : Response) : (s.respond v).px = s.px := rfl
@[simp] theorem State.respond_r0 (s : State) (v : Response) : (s.respond v).r0 = s.r0 := rfl
@[simp] theorem State.respond_halt (s : State) (v : Response) : (s.respond v).halt = s.halt := rfl
@[simp] theorem State.respond_fault (s : State) (v : Response) : (s.respond v).fault = s.fault := rfl
@[simp] theorem State.respond_inbox (s : State) (v : Response) : (s.respond v).inbox = s.inbox := rfl
@[simp] theorem State.respond_response (s : State) (v : Response) : (s.respond v).response = some v := rfl

/-! ## `setInbox` -/

@[simp] theorem State.setInbox_params (s : State) (v : List HostEvent) : (s.setInbox v).params = s.params := rfl
@[simp] theorem State.setInbox_srf (s : State) (v : List HostEvent) : (s.setInbox v).srf = s.srf := rfl
@[simp] theorem State.setInbox_sealed (s : State) (v : List HostEvent) : (s.setInbox v).sealed = s.sealed := rfl
@[simp] theorem State.setInbox_bb (s : State) (v : List HostEvent) : (s.setInbox v).bb = s.bb := rfl
@[simp] theorem State.setInbox_yb (s : State) (v : List HostEvent) : (s.setInbox v).yb = s.yb := rfl
@[simp] theorem State.setInbox_px (s : State) (v : List HostEvent) : (s.setInbox v).px = s.px := rfl
@[simp] theorem State.setInbox_r0 (s : State) (v : List HostEvent) : (s.setInbox v).r0 = s.r0 := rfl
@[simp] theorem State.setInbox_halt (s : State) (v : List HostEvent) : (s.setInbox v).halt = s.halt := rfl
@[simp] theorem State.setInbox_fault (s : State) (v : List HostEvent) : (s.setInbox v).fault = s.fault := rfl
@[simp] theorem State.setInbox_inbox (s : State) (v : List HostEvent) : (s.setInbox v).inbox = v := rfl
@[simp] theorem State.setInbox_response (s : State) (v : List HostEvent) : (s.setInbox v).response = s.response := rfl

/-! ## `completed` -/

@[simp] theorem State.completed_params (s : State) (d : ResponseData) : (s.completed d).params = s.params := rfl
@[simp] theorem State.completed_srf (s : State) (d : ResponseData) : (s.completed d).srf = s.srf := rfl
@[simp] theorem State.completed_sealed (s : State) (d : ResponseData) : (s.completed d).sealed = s.sealed := rfl
@[simp] theorem State.completed_bb (s : State) (d : ResponseData) : (s.completed d).bb = s.bb := rfl
@[simp] theorem State.completed_yb (s : State) (d : ResponseData) : (s.completed d).yb = s.yb := rfl
@[simp] theorem State.completed_px (s : State) (d : ResponseData) : (s.completed d).px = s.px := rfl
@[simp] theorem State.completed_r0 (s : State) (d : ResponseData) : (s.completed d).r0 = s.r0 := rfl
@[simp] theorem State.completed_halt (s : State) (d : ResponseData) : (s.completed d).halt = s.halt := rfl
@[simp] theorem State.completed_fault (s : State) (d : ResponseData) : (s.completed d).fault = s.fault := rfl
@[simp] theorem State.completed_inbox (s : State) (d : ResponseData) : (s.completed d).inbox = s.inbox := rfl
@[simp] theorem State.completed_response (s : State) (d : ResponseData) :
    (s.completed d).response = some { status := .ok, cause := .noFault, r0 := s.r0, data := d } := rfl

/-! ## `takeFault` -/

@[simp] theorem State.takeFault_params (s : State) (c : Cause) : (s.takeFault c).params = s.params := rfl
@[simp] theorem State.takeFault_srf (s : State) (c : Cause) : (s.takeFault c).srf = s.srf := rfl
@[simp] theorem State.takeFault_sealed (s : State) (c : Cause) : (s.takeFault c).sealed = s.sealed := rfl
@[simp] theorem State.takeFault_bb (s : State) (c : Cause) : (s.takeFault c).bb = s.bb := rfl
@[simp] theorem State.takeFault_yb (s : State) (c : Cause) : (s.takeFault c).yb = s.yb := rfl
@[simp] theorem State.takeFault_px (s : State) (c : Cause) : (s.takeFault c).px = s.px := rfl
@[simp] theorem State.takeFault_r0 (s : State) (c : Cause) : (s.takeFault c).r0 = s.r0 := rfl
@[simp] theorem State.takeFault_halt (s : State) (c : Cause) : (s.takeFault c).halt = true := rfl
@[simp] theorem State.takeFault_fault (s : State) (c : Cause) : (s.takeFault c).fault = c := rfl
@[simp] theorem State.takeFault_inbox (s : State) (c : Cause) : (s.takeFault c).inbox = s.inbox := rfl
@[simp] theorem State.takeFault_response (s : State) (c : Cause) :
    (s.takeFault c).response = some { status := .fault, cause := c, r0 := s.r0, data := .absent } := rfl

/-! ## `refuseHalted` -/

@[simp] theorem State.refuseHalted_params (s : State) : (s.refuseHalted).params = s.params := rfl
@[simp] theorem State.refuseHalted_srf (s : State) : (s.refuseHalted).srf = s.srf := rfl
@[simp] theorem State.refuseHalted_sealed (s : State) : (s.refuseHalted).sealed = s.sealed := rfl
@[simp] theorem State.refuseHalted_bb (s : State) : (s.refuseHalted).bb = s.bb := rfl
@[simp] theorem State.refuseHalted_yb (s : State) : (s.refuseHalted).yb = s.yb := rfl
@[simp] theorem State.refuseHalted_px (s : State) : (s.refuseHalted).px = s.px := rfl
@[simp] theorem State.refuseHalted_r0 (s : State) : (s.refuseHalted).r0 = s.r0 := rfl
@[simp] theorem State.refuseHalted_halt (s : State) : (s.refuseHalted).halt = s.halt := rfl
@[simp] theorem State.refuseHalted_fault (s : State) : (s.refuseHalted).fault = s.fault := rfl
@[simp] theorem State.refuseHalted_inbox (s : State) : (s.refuseHalted).inbox = s.inbox := rfl
@[simp] theorem State.refuseHalted_response (s : State) :
    (s.refuseHalted).response = some { status := .fault, cause := s.fault, r0 := s.r0, data := .absent } := rfl

/-! ## Reset -/

@[simp] theorem State.applyReset_params (s : State) : s.applyReset.params = s.params := rfl
@[simp] theorem State.applyReset_srf (s : State) : s.applyReset.srf = Srf.reset := rfl
@[simp] theorem State.applyReset_sealed (s : State) : s.applyReset.sealed = false := rfl
@[simp] theorem State.applyReset_bb (s : State) : s.applyReset.bb = [] := rfl
@[simp] theorem State.applyReset_yb (s : State) : s.applyReset.yb = [] := rfl
@[simp] theorem State.applyReset_px (s : State) : s.applyReset.px = none := rfl
@[simp] theorem State.applyReset_r0 (s : State) : s.applyReset.r0 = none := rfl
@[simp] theorem State.applyReset_halt (s : State) : s.applyReset.halt = false := rfl
@[simp] theorem State.applyReset_fault (s : State) : s.applyReset.fault = .noFault := rfl
@[simp] theorem State.applyReset_inbox (s : State) : s.applyReset.inbox = s.inbox := rfl
@[simp] theorem State.applyReset_response (s : State) : s.applyReset.response = none := rfl

end Sys2Proof.Machine
end

