-- ==== Sys2Proof/Laws/Ops.lean ====
section
/-! SUPPORT. For each shared operation, once, everything it can do: when it answers `.ok`, when it answers a cause. A proof about a
command peels its work apart with these and never unfolds an operation. -/

namespace Sys2Proof.Machine

/-! ## Sequencing of work -/

@[simp] theorem work_bind_ok {α β : Type} (x : Work α) (f : α → Work β) (b : β) :
    (x >>= f) = .ok b ↔ ∃ a, x = .ok a ∧ f a = .ok b := by
  cases x <;> simp [bind, Except.bind]

@[simp] theorem work_bind_error {α β : Type} (x : Work α) (f : α → Work β) (c : Cause) :
    (x >>= f) = .error c ↔ x = .error c ∨ ∃ a, x = .ok a ∧ f a = .error c := by
  cases x <;> simp [bind, Except.bind]

@[simp] theorem work_pure_ok {α : Type} (a b : α) : (pure a : Work α) = .ok b ↔ a = b := by
  simp [pure, Except.pure]

@[simp] theorem work_pure_error {α : Type} (a : α) (c : Cause) : ¬ (pure a : Work α) = .error c := by
  simp [pure, Except.pure]

@[simp] theorem work_map_ok {α β : Type} (f : α → β) (x : Work α) (b : β) : f <$> x = .ok b ↔ ∃ a, x = .ok a ∧ f a = b := by
  cases x <;> simp [Functor.map, Except.map]

@[simp] theorem work_map_error {α β : Type} (f : α → β) (x : Work α) (c : Cause) : f <$> x = .error c ↔ x = .error c := by
  cases x <;> simp [Functor.map, Except.map]

/-- Work that has begun well goes on with its value. -/
@[simp] theorem work_ok_bind {α β : Type} (a : α) (f : α → Work β) : ((.ok a : Work α) >>= f) = f a := rfl

/-- Work that has met a cause ends with it. -/
@[simp] theorem work_error_bind {α β : Type} (c : Cause) (f : α → Work β) : ((.error c : Work α) >>= f) = .error c := rfl

/-! ## Checks and reads -/

@[simp] theorem require_ok (c : Prop) [Decidable c] (e : Cause) (u : Unit) : require c e = .ok u ↔ c := by
  unfold require; split <;> simp_all

@[simp] theorem require_error (c : Prop) [Decidable c] (e e' : Cause) : require c e = .error e' ↔ ¬ c ∧ e = e' := by
  unfold require; split <;> simp_all

@[simp] theorem readField_ok {α : Type} (o : Option α) (v : α) : readField o = .ok v ↔ o = some v := by
  cases o <;> simp [readField]

@[simp] theorem readField_error {α : Type} (o : Option α) (e : Cause) :
    readField o = .error e ↔ o = none ∧ e = .sessionFieldUnset := by
  cases o <;> simp [readField, eq_comm]

@[simp] theorem readPX_ok (s : State) (f : Frame) : readPX s = .ok f ↔ s.px = some f := by
  unfold readPX; split <;> simp_all

@[simp] theorem readPX_error (s : State) (e : Cause) : readPX s = .error e ↔ s.px = none ∧ e = .bufferInvalid := by
  unfold readPX; split <;> simp_all [eq_comm]

@[simp] theorem selector_ok {α : Type} (o : Option α) (v : α) : selector o = .ok v ↔ o = some v := by
  cases o <;> simp [selector]

@[simp] theorem selector_error {α : Type} (o : Option α) (e : Cause) :
    selector o = .error e ↔ o = none ∧ e = .operandRange := by
  cases o <;> simp [selector, eq_comm]

@[simp] theorem toWord_ok (cfg : Params) (v r : Nat) :
    toWord cfg v = .ok r ↔ v < 2 ^ cfg.xlen ∧ r = v := by
  unfold toWord; split <;> simp_all [eq_comm]

@[simp] theorem toWord_error (cfg : Params) (v : Nat) (e : Cause) :
    toWord cfg v = .error e ↔ ¬ v < 2 ^ cfg.xlen ∧ e = .resultOverflow := by
  unfold toWord; split <;> simp_all [eq_comm]

@[simp] theorem requireUnsealed_ok (s : State) (u : Unit) : requireUnsealed s = .ok u ↔ s.sealed = false := by
  simp [requireUnsealed]

@[simp] theorem requireUnsealed_error (s : State) (e : Cause) :
    requireUnsealed s = .error e ↔ s.sealed = true ∧ e = .sessionSealed := by
  rw [requireUnsealed, require_error, Bool.not_eq_false]
  exact and_congr_right fun _ => eq_comm

/-! ## Operands -/

@[simp] theorem blockSizeOperand_ok (cfg : Params) (e n : Nat) :
    blockSizeOperand cfg e = .ok n ↔ e < 2 ^ cfg.dimBits ∧ n = e := by
  unfold blockSizeOperand; split <;> simp_all [eq_comm]

@[simp] theorem blockSizeOperand_error (cfg : Params) (e : Nat) (c : Cause) :
    blockSizeOperand cfg e = .error c ↔ ¬ e < 2 ^ cfg.dimBits ∧ c = .operandRange := by
  unfold blockSizeOperand; split <;> simp_all [eq_comm]

@[simp] theorem dimValue_ok (cfg : Params) (v d : Nat) :
    dimValue cfg v = .ok d ↔ v < 2 ^ cfg.dimBits ∧ d = v := by
  unfold dimValue; split <;> simp_all [eq_comm]

@[simp] theorem dimValue_error (cfg : Params) (v : Nat) (c : Cause) :
    dimValue cfg v = .error c ↔ ¬ v < 2 ^ cfg.dimBits ∧ c = .operandRange := by
  unfold dimValue; split <;> simp_all [eq_comm]

/-- `geometry_ok` passes exactly the tiling geometries (R176). -/
@[simp] theorem geometryOk_ok (e w h : Nat) (u : Unit) :
    geometryOk e w h = .ok u ↔ (e ≥ 1 ∧ w ≥ 1 ∧ h ≥ 1) ∧ w % e = 0 ∧ h % e = 0 := by
  unfold geometryOk require
  by_cases h1 : e ≥ 1 ∧ w ≥ 1 ∧ h ≥ 1
  · by_cases h2 : w % e = 0 ∧ h % e = 0 <;> simp [h1, h2]
  · simp [h1]

/-- Every other geometry is `IncompatibleDimensions` (R176). -/
@[simp] theorem geometryOk_error (e w h : Nat) (c : Cause) :
    geometryOk e w h = .error c ↔
      ¬ ((e ≥ 1 ∧ w ≥ 1 ∧ h ≥ 1) ∧ w % e = 0 ∧ h % e = 0) ∧ c = .incompatibleDimensions := by
  unfold geometryOk require
  by_cases h1 : e ≥ 1 ∧ w ≥ 1 ∧ h ≥ 1
  · by_cases h2 : w % e = 0 ∧ h % e = 0
    · simp [h1, h2]
    · simp only [h1, h2, and_true, and_false, not_false_eq_true, true_and, if_true, if_false, Except.error.injEq]
      exact eq_comm
  · simp only [h1, if_false, false_and, not_false_eq_true, true_and, Except.error.injEq]
    exact eq_comm

@[simp] theorem recognizeMode_ok (code : Nat) (m : VideoMode) :
    recognizeMode code = .ok m ↔ VideoMode.ofCode code = some m := by
  unfold recognizeMode; split <;> simp_all

@[simp] theorem recognizeMode_error (code : Nat) (c : Cause) :
    recognizeMode code = .error c ↔ VideoMode.ofCode code = none ∧ c = .unrecognizedVideoType := by
  unfold recognizeMode
  cases VideoMode.ofCode code
  · simp only [true_and, Except.error.injEq]; exact eq_comm
  · simp

/-- The closed lookup, read backwards (R110). -/
@[simp] theorem ofCode_some (code : Nat) (m : VideoMode) : VideoMode.ofCode code = some m ↔ m.code = code := by
  unfold VideoMode.ofCode
  split <;> cases m <;> simp_all [VideoMode.code, eq_comm]

/-- A mode operand that passes R175 is one of the two implemented codes. -/
theorem modeOperand_ok (mode : Nat) (d : Density) :
    modeOperand mode = .ok d ↔ (mode = 0 ∧ d = .monochrome) ∨ (mode = 2 ∧ d = .color3) := by
  unfold modeOperand recognizeMode
  match mode with
  | 0 | 1 | 2 | 3 | 4 => cases d <;> simp [VideoMode.ofCode, VideoMode.density]
  | n + 5 => simp [VideoMode.ofCode]

/-! ## Checked writes -/

@[simp] theorem storeBB_ok (s t : State) (b : Bits) :
    storeBB s b = .ok t ↔ fitsBuffer s.params b.length = true ∧ t = s.setBB b := by
  unfold storeBB
  split <;> rename_i h
  · simp only [h, true_and, Except.ok.injEq]; exact eq_comm
  · exact ⟨fun g => (by cases g), fun g => absurd g.1 h⟩

@[simp] theorem storeBB_error (s : State) (b : Bits) (e : Cause) :
    storeBB s b = .error e ↔ fitsBuffer s.params b.length = false ∧ e = .resultOverflow := by
  unfold storeBB
  split <;> rename_i h
  · simp [h]
  · simp only [h, true_and, Except.error.injEq]; exact eq_comm

@[simp] theorem storeYB_ok (s t : State) (y : Bytes) :
    storeYB s y = .ok t ↔ fitsBuffer s.params y.length = true ∧ t = s.setYB y := by
  unfold storeYB
  split <;> rename_i h
  · simp only [h, true_and, Except.ok.injEq]; exact eq_comm
  · exact ⟨fun g => (by cases g), fun g => absurd g.1 h⟩

@[simp] theorem storeYB_error (s : State) (y : Bytes) (e : Cause) :
    storeYB s y = .error e ↔ fitsBuffer s.params y.length = false ∧ e = .resultOverflow := by
  unfold storeYB
  split <;> rename_i h
  · simp [h]
  · simp only [h, true_and, Except.error.injEq]; exact eq_comm

@[simp] theorem storeR0_ok (s t : State) (v : Nat) :
    storeR0 s v = .ok t ↔ v < 2 ^ s.params.xlen ∧ t = s.setR0 v := by
  unfold storeR0 toWord
  by_cases h : v < 2 ^ s.params.xlen
  · simp only [h, if_true, true_and, Except.ok.injEq]; exact eq_comm
  · simp only [h, if_false, false_and, reduceCtorEq]

@[simp] theorem storeR0_error (s : State) (v : Nat) (e : Cause) :
    storeR0 s v = .error e ↔ ¬ v < 2 ^ s.params.xlen ∧ e = .resultOverflow := by
  unfold storeR0 toWord
  by_cases h : v < 2 ^ s.params.xlen
  · simp only [h, if_true, not_true, false_and, reduceCtorEq]
  · simp only [h, if_false, not_false_eq_true, true_and, Except.error.injEq]; exact eq_comm

/-! ## How a command ends -/

@[simp] theorem silent_ok (w : Work State) (t : State) (d : ResponseData) :
    silent w = .ok (t, d) ↔ w = .ok t ∧ d = .absent := by
  cases w <;> simp [silent, eq_comm]

@[simp] theorem silent_error (w : Work State) (c : Cause) : silent w = .error c ↔ w = .error c := by
  cases w <;> simp [silent]

/-- A command on a halted CORE is refused, whatever its work (R302). -/
theorem runCommand_halted (s : State) (w : Work (State × ResponseData)) (h : s.halt = true) :
    runCommand s w = .next s.refuseHalted := by
  simp [runCommand, h]

/-- Work that completes ends the command with its writes and an `OK` response (R94). -/
theorem runCommand_ok (s t : State) (w : Work (State × ResponseData)) (d : ResponseData) (h : s.halt = false)
    (hw : w = .ok (t, d)) : runCommand s w = .next (t.completed d) := by
  simp [runCommand, h, hw]

/-- Work that meets a cause ends the command in a fault entry (R300). -/
theorem runCommand_error (s : State) (w : Work (State × ResponseData)) (c : Cause) (h : s.halt = false)
    (hw : w = .error c) : runCommand s w = .next (s.takeFault c) := by
  simp [runCommand, h, hw]

/-- The three ends of a command, and there is no fourth. -/
theorem runCommand_next (s t : State) (w : Work (State × ResponseData)) :
    runCommand s w = .next t ↔
      (s.halt = true ∧ t = s.refuseHalted) ∨
      (s.halt = false ∧ ∃ u d, w = .ok (u, d) ∧ t = u.completed d) ∨
      (s.halt = false ∧ ∃ c, w = .error c ∧ t = s.takeFault c) := by
  unfold runCommand
  rcases hh : s.halt with _ | _
  · rcases w with c | ⟨u, d⟩ <;> simp [eq_comm]
  · simp [eq_comm]

/-- Every command answers a next state. -/
theorem runCommand_total (s : State) (w : Work (State × ResponseData)) : ∃ t, runCommand s w = .next t := by
  rcases hh : s.halt with _ | _
  · rcases hw : w with c | ⟨u, d⟩
    · exact ⟨_, runCommand_error s _ c hh rfl⟩
    · exact ⟨_, runCommand_ok s u _ d hh rfl⟩
  · exact ⟨_, runCommand_halted s w hh⟩

end Sys2Proof.Machine
end

