-- ==== Sys2Proof/Laws/PerInstr.lean ====
section
/-! SUPPORT. The per-command families. `PacketHead`: every packet begins with the 8 bits of a `cmd` and has at least the operand
fields of that `cmd`'s format (spec rules R91, R92, R95). -/

namespace Sys2Proof.Laws.PacketHead

open Sys2Proof.Machine

/-- Whatever the parameters, the packet of a command starts with its command word and holds its format's operand fields. -/
def Statement (i : Instr) : Prop :=
  ∀ cfg : Params, ∃ cmd fields, encode cfg i = byteToBits cmd ++ fields ∧ cfg.xlen * operandFields cmd ≤ fields.length

theorem dec2bin (value width : Nat) : Statement (.dec2bin value width) :=
  fun cfg => ⟨0x10, wordBits cfg value ++ wordBits cfg width, rfl, by simp [wordBits, operandFields, Nat.mul_two]⟩
theorem bin2dec : Statement .bin2dec := fun _ => ⟨0x11, [], by simp [encode, packC0], by simp [operandFields]⟩
theorem byte2bits (v : Nat) : Statement (.byte2bits v) := fun cfg => ⟨0x12, wordBits cfg v, rfl, by simp [wordBits, operandFields]⟩
theorem bits2byte : Statement .bits2byte := fun _ => ⟨0x13, [], by simp [encode, packC0], by simp [operandFields]⟩
theorem pages2bytes : Statement .pages2bytes := fun _ => ⟨0x14, [], by simp [encode, packC0], by simp [operandFields]⟩
theorem bin2str : Statement .bin2str := fun _ => ⟨0x15, [], by simp [encode, packC0], by simp [operandFields]⟩
theorem hdrGen : Statement .hdrGen := fun _ => ⟨0x20, [], by simp [encode, packC0], by simp [operandFields]⟩
theorem hdrParse : Statement .hdrParse := fun _ => ⟨0x21, [], by simp [encode, packC0], by simp [operandFields]⟩
theorem rasterCap (mode edge : Nat) : Statement (.rasterCap mode edge) :=
  fun cfg => ⟨0x30, wordBits cfg mode ++ wordBits cfg edge, rfl, by simp [wordBits, operandFields, Nat.mul_two]⟩
theorem rasterEnc (mode edge : Nat) : Statement (.rasterEnc mode edge) :=
  fun cfg => ⟨0x31, wordBits cfg mode ++ wordBits cfg edge, rfl, by simp [wordBits, operandFields, Nat.mul_two]⟩
theorem rasterDec (mode edge : Nat) : Statement (.rasterDec mode edge) :=
  fun cfg => ⟨0x32, wordBits cfg mode ++ wordBits cfg edge, rfl, by simp [wordBits, operandFields, Nat.mul_two]⟩
theorem chunkBpf : Statement .chunkBpf := fun _ => ⟨0x40, [], by simp [encode, packC0], by simp [operandFields]⟩
theorem chunkMaxblk (required : Nat) : Statement (.chunkMaxblk required) :=
  fun cfg => ⟨0x41, wordBits cfg required, rfl, by simp [wordBits, operandFields]⟩
theorem chunkDerive : Statement .chunkDerive := fun _ => ⟨0x42, [], by simp [encode, packC0], by simp [operandFields]⟩
theorem pageBuild : Statement .pageBuild := fun _ => ⟨0x43, [], by simp [encode, packC0], by simp [operandFields]⟩
theorem pageUnpack (i : Nat) : Statement (.pageUnpack i) := fun cfg => ⟨0x44, wordBits cfg i, rfl, by simp [wordBits, operandFields]⟩
theorem sesSet (f v : Nat) : Statement (.sesSet f v) :=
  fun cfg => ⟨0x50, wordBits cfg f ++ wordBits cfg v, rfl, by simp [wordBits, operandFields, Nat.mul_two]⟩
theorem sesSets (f : Nat) : Statement (.sesSets f) := fun cfg => ⟨0x51, wordBits cfg f, rfl, by simp [wordBits, operandFields]⟩
theorem sesGet (f : Nat) : Statement (.sesGet f) := fun cfg => ⟨0x52, wordBits cfg f, rfl, by simp [wordBits, operandFields]⟩
theorem sesGets (f : Nat) : Statement (.sesGets f) := fun cfg => ⟨0x53, wordBits cfg f, rfl, by simp [wordBits, operandFields]⟩
theorem ldBb (n : Nat) (bits : Bits) : Statement (.ldBb n bits) :=
  fun cfg => ⟨0x54, wordBits cfg n ++ bits, rfl, by simp [wordBits, operandFields]⟩
theorem stBb : Statement .stBb := fun _ => ⟨0x55, [], by simp [encode, packC0], by simp [operandFields]⟩
theorem ldYb (n : Nat) (bytes : Bytes) : Statement (.ldYb n bytes) :=
  fun cfg => ⟨0x56, wordBits cfg n ++ bytesToBits bytes, rfl, by simp [wordBits, operandFields]⟩
theorem stYb : Statement .stYb := fun _ => ⟨0x57, [], by simp [encode, packC0], by simp [operandFields]⟩
theorem ldPx (w h : Nat) (data : Bytes) : Statement (.ldPx w h data) :=
  fun cfg => ⟨0x58, wordBits cfg w ++ (wordBits cfg h ++ bytesToBits data), rfl, by simp [wordBits, operandFields]; omega⟩
theorem stPx : Statement .stPx := fun _ => ⟨0x59, [], by simp [encode, packC0], by simp [operandFields]⟩

end Sys2Proof.Laws.PacketHead
end

