-- ==== Sys2Proof/Laws/Pixels.lean ====
section
/-! SUPPORT. The frames that commands store hold all their pixels (spec rule R25): the well-formedness of the CORE's one addressed
space is kept by the two operations that write it, and reset has no frame. -/

namespace Sys2Proof.Machine

theorem Frame.wf_iff (f : Frame) : f.wf = true ↔ f.pixels.length = f.w * f.h := by simp [Frame.wf]

@[simp] theorem Raster.encode_w (g : Raster) (b : Bits) : (g.encode b).w = g.width := rfl

@[simp] theorem Raster.encode_h (g : Raster) (b : Bits) : (g.encode b).h = g.height := rfl

/-- `raster_encode` writes every pixel of the frame (R68). -/
theorem Raster.encode_wf (g : Raster) (b : Bits) : (g.encode b).wf = true := by simp [Frame.wf, Raster.encode]

/-- Transfer bytes make a third as many pixels (R63). -/
theorem pixelsOfBytes_length (n : Nat) (y : Bytes) (h : y.length = 3 * n) : (pixelsOfBytes y).length = n := by
  induction n generalizing y with
  | zero => simp_all [pixelsOfBytes]
  | succ n ih =>
    match y, h with
    | r :: g :: b :: rest, h => simp [pixelsOfBytes, ih rest (by simp at h; omega)]

/-- The frame that `LD.PX` stores holds all its pixels (R240). -/
theorem loaded_wf (w h : Nat) (y : Bytes) (hy : y.length = w * h * 3) :
    Frame.wf { w := w, h := h, pixels := pixelsOfBytes y } = true := by
  rw [Frame.wf_iff]; exact pixelsOfBytes_length (w * h) y (by omega)

theorem reset_px : State.reset.px = none := rfl

end Sys2Proof.Machine
end

