-- ==== Sys2Proof/Laws/Runs.lean ====
section
/-! SUPPORT. What a part of a host's run can do: how two parts follow each other, and the ends of issuing one command. A proof about a run
peels its parts apart with these and never unfolds them. -/

namespace Sys2Proof.Machine

/-- Every command is work that `runCommand` runs. -/
theorem exec_eq_runCommand (i : Instr) (s : State) : ∃ w, exec i s = runCommand s w := by
  cases i <;> first
    | exact ⟨_, rfl⟩
    | (simp only [exec, execStBb, execStYb]; exact ⟨_, rfl⟩)

/-- Two parts end well when both do. -/
theorem Run.andThen_ok {α β : Type} (part : Run α) (rest : α → Run β) (h h' : HostSide) (v : β) :
    part.andThen rest h = (h', .ok v) ↔ ∃ m u, part h = (m, .ok u) ∧ rest u m = (h', .ok v) := by
  rcases hp : part h with ⟨m, a | u⟩ <;> simp [Run.andThen, hp]

/-- Two parts are aborted in the first or in the second. -/
theorem Run.andThen_error {α β : Type} (part : Run α) (rest : α → Run β) (h h' : HostSide) (a : Abort) :
    part.andThen rest h = (h', .error a) ↔
      part h = (h', .error a) ∨ ∃ m u, part h = (m, .ok u) ∧ rest u m = (h', .error a) := by
  rcases hp : part h with ⟨m, b | u⟩ <;> simp [Run.andThen, hp]

/-- Issuing a command, once: no packet; completed; faulted; refused by a halted CORE. There is no other end. -/
theorem Run.issue_cases (i : Instr) (h : HostSide) :
    (i.wellFormed h.core.params = false ∧ Run.issue i h = (h, .error .noOperandField)) ∨
    (∃ (u : State) (d : ResponseData), h.core.halt = false ∧ exec i h.core = .next (u.completed d) ∧ Run.issue i h =
      ({ h with core := u.completed d, latest := (u.completed d).response }, .ok ())) ∨
    (∃ c : Cause, h.core.halt = false ∧ exec i h.core = .next (h.core.takeFault c) ∧ Run.issue i h =
      ({ h with core := h.core.takeFault c, latest := (h.core.takeFault c).response }, .error (.faulted c))) ∨
    (h.core.halt = true ∧ exec i h.core = .next h.core.refuseHalted ∧ Run.issue i h =
      ({ h with core := h.core.refuseHalted, latest := h.core.refuseHalted.response }, .error (.faulted h.core.fault))) := by
  rcases hw : i.wellFormed h.core.params with _ | _
  · exact .inl ⟨rfl, by simp [Run.issue, hw]⟩
  · obtain ⟨w, he⟩ := exec_eq_runCommand i h.core
    rcases hh : h.core.halt with _ | _
    · rcases w with c | ⟨u, d⟩
      · have e := he.trans (runCommand_error _ _ c hh rfl)
        exact .inr (.inr (.inl ⟨c, rfl, e, by simp [Run.issue, hw, e]⟩))
      · have e := he.trans (runCommand_ok _ u _ d hh rfl)
        exact .inr (.inl ⟨u, d, rfl, e, by simp [Run.issue, hw, e]⟩)
    · have e := he.trans (runCommand_halted _ w hh)
      exact .inr (.inr (.inr ⟨rfl, e, by simp [Run.issue, hw, e]⟩))

end Sys2Proof.Machine
end

