-- ==== Sys2Proof/Tests/Slice0.lean ====
section
/-! SUPPORT. The session's own tests: the smoke of WellFormed, one written-out packet per command, at most two results per command
with the expected values of 95_test_vectors.md (the vector's id is in the name), and for every statement with hypotheses a
witness that something meets them. -/

set_option maxRecDepth 20000

namespace Sys2Proof.Tests

open Sys2Proof Sys2Proof.Machine

/-! ## Helpers -/

/-- Bits written as 0 and 1. -/
def b (l : List Nat) : Bits := l.map (fun x => x == 1)

/-- A field of the next state, none if there is no next state. -/
def after {α : Type} (r : Result) (f : State → α) : Option α :=
  match r with
  | .next t => some (f t)
  | .fault _ => none
  | .refused _ => none

/-- The cause and whether the data registers are as they were: what a fault vector expects. -/
def faulted (s : State) (r : Result) : Option (Nat × Bool × Bool) :=
  after r fun t => (t.fault.code, t.halt,
    decide (t.srf = s.srf ∧ t.bb = s.bb ∧ t.yb = s.yb ∧ t.px = s.px ∧ t.r0 = s.r0 ∧ t.sealed = s.sealed))

theorem next_of_after {α : Type} {r : Result} {f : State → α} {v : α} (h : after r f = some v) :
    ∃ t, r = .next t ∧ f t = v := by
  cases r with
  | next t => exact ⟨t, rfl, Option.some.inj h⟩
  | fault x => nomatch x
  | refused x => exact nomatch h

/-- `CK` of 95_test_vectors.md: `0123456789abcdef` four times, as ASCII bytes. -/
def ck : Bytes := (List.replicate 4
  [0x30, 0x31, 0x32, 0x33, 0x34, 0x35, 0x36, 0x37, 0x38, 0x39, 0x61, 0x62, 0x63, 0x64, 0x65, 0x66]).flatten

/-- "a.txt". -/
def aTxt : Bytes := [0x61, 0x2E, 0x74, 0x78, 0x74]

/-- A session with `MODE`, `PSIZE`, `W`, `H` set. -/
def geometry (m : VideoMode) (e w h : Nat) : Srf :=
  { Srf.reset with
    mode := some m, psize := some e, w := some w, h := some h }

/-- The unsealed session of Session X (95_test_vectors.md 2.2) after `CHUNK.BPF`. -/
def openX : Srf :=
  { geometry .monochrome 4 32 32 with checksum := some ck, fname := some aTxt, fsize := some 11, bpf := some 8 }

/-- Session X after `CHUNK.DERIVE`. -/
def sealedX : Srf := { openX with tframes := some 2, unused := some 5 }

/-- The reset state with a session. -/
def withSrf (r : Srf) : State := State.reset.setSrf r

/-- The reset state with bits in `BB`. -/
def withBB (x : Bits) : State := State.reset.setBB x

/-- Session X, sealed. -/
def stateX : State := (withSrf sealedX).seal

/-- A halted CORE (`FAULT = 2`, vector S1). -/
def halted : State := State.reset.takeFault .operandRange

/-- The packet decoder at the default parameters. -/
def dec (p : Bits) : Except DecodeError Instr := decode Params.defaults p

/-- A packet at the default parameters. -/
def pk (cmd : Nat) (fields : List Nat) (data : Bits) : Bits := packet Params.defaults cmd fields data

/-- The smallest parameters R8 allows, with the widest dimensions. -/
def small : Params := { xlen := 32, dimBits := 32, strMax := 65, bufMax := some 844 }

/-- A CORE built with them, with a session. -/
def smallWith (r : Srf) : State := (State.resetWith small).setSrf r

/-- A state with one pending command packet. -/
def issued (s : State) (p : Bits) : State := s.setInbox [.command p]

/-! ## WellFormed -/

theorem smoke_ldBb_count_refused : (Instr.ldBb 3 [true]).wellFormed Params.defaults = false := by decide
theorem smoke_ldYb_count_refused : (Instr.ldYb 1 [1, 2]).wellFormed Params.defaults = false := by decide
theorem smoke_wide_operand_refused :
    (Instr.sesSet 7 (2 ^ 64)).wellFormed Params.defaults = false ∧ (Instr.dec2bin (2 ^ 64) 1).wellFormed Params.defaults = false ∧
    (Instr.ldPx 0 (2 ^ 64) []).wellFormed Params.defaults = false ∧ (Instr.sesGet (2 ^ 32)).wellFormed small = false := by decide
theorem smoke_counts_accepted :
    (Instr.ldBb 1 [true]).wellFormed Params.defaults = true ∧ (Instr.ldYb 2 [1, 2]).wellFormed Params.defaults = true ∧
    (Instr.ldPx 9 9 [1]).wellFormed Params.defaults = true := by decide

/-! ## One packet per command, bit by bit: `cmd` of R95, then 64-bit fields (R92), most significant bit first -/

theorem decode_dec2bin : dec (b [0,0,0,1, 0,0,0,0] ++ zeros 61 ++ b [1,0,1] ++ zeros 60 ++ b [1,0,0,0])
    = .ok (.dec2bin 5 8) := by decide
theorem decode_bin2dec : dec (b [0,0,0,1, 0,0,0,1]) = .ok .bin2dec := by decide
theorem decode_byte2bits : dec (b [0,0,0,1, 0,0,1,0] ++ zeros 57 ++ b [1,1,0,0,0,0,1]) = .ok (.byte2bits 0x61) := by decide
theorem decode_bits2byte : dec (b [0,0,0,1, 0,0,1,1]) = .ok .bits2byte := by decide
theorem decode_pages2bytes : dec (b [0,0,0,1, 0,1,0,0]) = .ok .pages2bytes := by decide
theorem decode_bin2str : dec (b [0,0,0,1, 0,1,0,1]) = .ok .bin2str := by decide
theorem decode_hdrGen : dec (b [0,0,1,0, 0,0,0,0]) = .ok .hdrGen := by decide
theorem decode_hdrParse : dec (b [0,0,1,0, 0,0,0,1]) = .ok .hdrParse := by decide
theorem decode_rasterCap : dec (b [0,0,1,1, 0,0,0,0] ++ zeros 62 ++ b [1,0] ++ zeros 60 ++ b [1,0,1,0])
    = .ok (.rasterCap 2 10) := by decide
theorem decode_rasterEnc : dec (b [0,0,1,1, 0,0,0,1] ++ zeros 64 ++ zeros 61 ++ b [1,0,0]) = .ok (.rasterEnc 0 4) := by decide
theorem decode_rasterDec : dec (b [0,0,1,1, 0,0,1,0] ++ zeros 64 ++ zeros 63 ++ b [1]) = .ok (.rasterDec 0 1) := by decide
theorem decode_chunkBpf : dec (b [0,1,0,0, 0,0,0,0]) = .ok .chunkBpf := by decide
theorem decode_chunkMaxblk : dec (b [0,1,0,0, 0,0,0,1] ++ zeros 54 ++ b [1,1,0,1,0,0,1,1,0,0]) = .ok (.chunkMaxblk 844) := by
  decide
theorem decode_chunkDerive : dec (b [0,1,0,0, 0,0,1,0]) = .ok .chunkDerive := by decide
theorem decode_pageBuild : dec (b [0,1,0,0, 0,0,1,1]) = .ok .pageBuild := by decide
theorem decode_pageUnpack : dec (b [0,1,0,0, 0,1,0,0] ++ zeros 63 ++ b [1]) = .ok (.pageUnpack 1) := by decide
theorem decode_sesSet : dec (b [0,1,0,1, 0,0,0,0] ++ zeros 61 ++ b [1,1,1] ++ b [1] ++ zeros 62 ++ b [1])
    = .ok (.sesSet 7 0x8000000000000001) := by decide
theorem decode_sesSets : dec (b [0,1,0,1, 0,0,0,1] ++ zeros 61 ++ b [1,0,1]) = .ok (.sesSets 5) := by decide
theorem decode_sesGet : dec (b [0,1,0,1, 0,0,1,0] ++ zeros 60 ++ b [1,0,1,0]) = .ok (.sesGet 10) := by decide
theorem decode_sesGets : dec (b [0,1,0,1, 0,0,1,1] ++ zeros 61 ++ b [1,1,0]) = .ok (.sesGets 6) := by decide
theorem decode_ldBb : dec (b [0,1,0,1, 0,1,0,0] ++ zeros 62 ++ b [1,1] ++ b [1,0,0]) = .ok (.ldBb 3 (b [1,0,0])) := by decide
theorem decode_stBb : dec (b [0,1,0,1, 0,1,0,1]) = .ok .stBb := by decide
theorem decode_ldYb : dec (b [0,1,0,1, 0,1,1,0] ++ zeros 62 ++ b [1,0] ++ b [0,1,1,0,1,0,0,1] ++ b [1,0,0,0,0,0,0,0])
    = .ok (.ldYb 2 [0x69, 0x80]) := by decide
theorem decode_stYb : dec (b [0,1,0,1, 0,1,1,1]) = .ok .stYb := by decide
theorem decode_ldPx : dec (b [0,1,0,1, 1,0,0,0] ++ zeros 63 ++ b [1] ++ zeros 63 ++ b [1] ++ b [1,1,1,1,1,1,1,1]
    ++ b [1,0,0,0,0,0,0,0] ++ zeros 8) = .ok (.ldPx 1 1 [255, 128, 0]) := by decide
theorem decode_stPx : dec (b [0,1,0,1, 1,0,0,1]) = .ok .stPx := by decide

/-- Vector S9's words, and packets of no format. -/
theorem decode_rejects_by_name :
    dec (b [0,0,0,0, 0,0,0,0]) = .error (.illegalCommand 0x00) ∧
    dec (b [1,1,1,1, 1,1,1,1] ++ zeros 3) = .error (.illegalCommand 0xFF) ∧
    dec (b [0,0,0,1, 0,0,0]) = .error (.malformed .noCommandWord) ∧
    dec (b [0,0,0,1, 0,0,1,0] ++ zeros 63) = .error (.malformed .operandMissing) ∧
    dec (b [0,0,0,1, 0,0,0,1] ++ zeros 1) = .error (.malformed .excessBits) ∧
    dec (b [0,1,0,1, 0,1,0,0] ++ zeros 63 ++ b [1]) = .error (.malformed .dataCount) ∧
    dec (b [0,1,0,1, 1,0,0,0] ++ zeros 129) = .error (.malformed .partialByte) := by decide

/-- A table word reads as its row's command, operand fields zero, and is the next thing `step` runs. -/
theorem table_words :
    decodeTableWord 8 0x15 = some .bin2str ∧ decodeTableWord 8 0x50 = some (.sesSet 0 0) ∧
    decodeTableWord 8 0x58 = some (.ldPx 0 0 []) ∧ decodeTableWord 8 0x16 = none ∧
    after (step (State.reset.withFetchWord 8 0x50)) (fun t => (t.srf.mode, t.inbox)) = some (some .monochrome, []) := by decide

/-! ## Results of the commands -/

theorem dec2bin_A1_A7b :
    after (exec (.dec2bin 5 8) State.reset) State.bb = some (b [0,0,0,0,0,1,0,1]) ∧
    after (exec (.dec2bin 1 70) State.reset) State.bb = some (zeros 69 ++ [true]) := by decide
theorem dec2bin_A4_A5 :
    faulted State.reset (exec (.dec2bin 256 8) State.reset) = some (6, true, true) ∧
    faulted State.reset (exec (.dec2bin 0 0) State.reset) = some (6, true, true) := by decide
theorem bin2dec_A8d_A8e :
    after (exec .bin2dec (withBB (zeros 100 ++ [true]))) State.r0 = some (some 1) ∧
    after (exec .bin2dec (withBB (List.replicate 64 true))) State.r0 = some (some 18446744073709551615) := by decide
theorem bin2dec_A8b_A8c :
    faulted State.reset (exec .bin2dec State.reset) = some (7, true, true) ∧
    faulted (withBB (true :: zeros 64)) (exec .bin2dec (withBB (true :: zeros 64))) = some (7, true, true) := by decide
theorem byte2bits_A9b : after (exec (.byte2bits 128) State.reset) State.bb = some (b [1,0,0,0,0,0,0,0]) := by decide
theorem byte2bits_A9d : faulted State.reset (exec (.byte2bits 256) State.reset) = some (2, true, true) := by decide
theorem bits2byte_A10 : after (exec .bits2byte (withBB (b [0,1,1,0,0,0,0,1]))) State.r0 = some (some 97) := by decide
theorem bits2byte_A10c :
    faulted (withBB (b [0,1,1,0,0,0,0,1,0])) (exec .bits2byte (withBB (b [0,1,1,0,0,0,0,1,0]))) = some (8, true, true) := by decide
theorem pages2bytes_A11b :
    after (exec .pages2bytes (withBB (b [0,0,0,0,0,0,0,0, 0,1,1,0,0,0,0,1]))) State.yb = some [0x00, 0x61] := by decide
theorem pages2bytes_A11c :
    faulted (withBB (zeros 9)) (exec .pages2bytes (withBB (zeros 9))) = some (9, true, true) := by decide
theorem bin2str_A12 :
    after (exec .bin2str (withBB (zeros 8 ++ b [0,1,1,0,0,0,0,1] ++ zeros 8 ++ b [0,1,1,0,0,0,1,0]))) State.yb
      = some [0x61, 0x62] := by decide
theorem bin2str_A12d : after (exec .bin2str (withBB (b [1,0,0,0,0,0,0,0]))) State.yb = some [0x80] := by decide

/-- Vector H1's 211 hexadecimal digits. -/
def h1 : Bits := ([0,
  3,0,3,1,3,2,3,3,3,4,3,5,3,6,3,7,3,8,3,9,6,1,6,2,6,3,6,4,6,5,6,6,
  3,0,3,1,3,2,3,3,3,4,3,5,3,6,3,7,3,8,3,9,6,1,6,2,6,3,6,4,6,5,6,6,
  3,0,3,1,3,2,3,3,3,4,3,5,3,6,3,7,3,8,3,9,6,1,6,2,6,3,6,4,6,5,6,6,
  3,0,3,1,3,2,3,3,3,4,3,5,3,6,3,7,3,8,3,9,6,1,6,2,6,3,6,4,6,5,6,6]
  ++ List.replicate 54 0 ++ [6,1,2,14,7,4,7,8,7,4, 0,4, 0,0,0,0,0,0,0,5, 0,0,0,0,0,0,0,2]).flatMap (fun d => decToBin d 4)

theorem hdrGen_H1 : after (exec .hdrGen stateX) State.bb = some h1 := by decide
theorem hdrGen_H5c :
    let s := (withSrf { sealedX with fname := some (List.replicate 33 0x61), checksum := some (ck.take 63) }).seal
    faulted s (exec .hdrGen s) = some (10, true, true) := by decide
theorem hdrParse_H2 :
    after (exec .hdrParse (withBB (h1 ++ zeros 180))) (fun t => (t.srf, t.sealed)) =
      some ({ Srf.reset with
        mode := some .monochrome, checksum := some ck, fname := some aTxt, psize := some 4, unused := some 5
        tframes := some 2 }, true) := by decide
theorem hdrParse_H7_H8 :
    faulted (withBB (b [0,1,0,1] ++ h1.drop 4)) (exec .hdrParse (withBB (b [0,1,0,1] ++ h1.drop 4))) = some (12, true, true) ∧
    faulted (withBB (h1.take 843)) (exec .hdrParse (withBB (h1.take 843))) = some (16, true, true) := by decide

theorem rasterCap_B1 :
    after (exec (.rasterCap 0 10) (withSrf (geometry .monochrome 1 1280 720))) State.r0 = some (some 9216) ∧
    after (exec (.rasterCap 2 10) (withSrf (geometry .monochrome 1 1280 720))) State.r0 = some (some 27648) := by decide
/-- B6e, B6f, B6g, B6i: the order of the checks. -/
theorem rasterCap_B6 :
    let s := withSrf (geometry .monochrome 1 4 2)
    faulted s (exec (.rasterCap 0 65536) s) = some (2, true, true) ∧ faulted s (exec (.rasterCap 7 65536) s) = some (2, true, true) ∧
    faulted s (exec (.rasterCap 1 3) s) = some (13, true, true) ∧
    faulted State.reset (exec (.rasterCap 1 1) State.reset) = some (13, true, true) := by decide
/-- B4: the transfer layout and the padding of the last block. -/
theorem rasterEnc_B4 :
    after (exec (.rasterEnc 2 2) ((withSrf (geometry .color3 2 4 2)).setBB (b [1,0,1,1])))
      (fun t => t.px.map (fun f => (f.w, f.h, f.transfer))) =
      some (some (4, 2, (List.replicate 2 [255,0,255, 255,0,255, 255,0,0, 255,0,0]).flatten)) := by decide
theorem rasterEnc_B5 :
    let s := (withSrf (geometry .monochrome 2 4 2)).setBB (b [1,0,1])
    faulted s (exec (.rasterEnc 0 2) s) = some (15, true, true) := by decide

/-- A 4x4 frame, black but for one white pixel (B13). -/
def dot (x y : Nat) : Frame :=
  { w := 4, h := 4, pixels := (List.range 16).map fun k => if k = y * 4 + x then ⟨255, 255, 255⟩ else ⟨0, 0, 0⟩ }

theorem rasterDec_B13 :
    let s := withSrf (geometry .monochrome 1 4 4)
    after (exec (.rasterDec 0 4) (s.setPX (dot 2 2))) State.bb = some (b [1]) ∧
    after (exec (.rasterDec 0 2) (s.setPX (dot 2 2))) State.bb = some (b [0,0,0,0]) ∧
    after (exec (.rasterDec 0 2) (s.setPX (dot 3 1))) State.bb = some (b [0,1,0,0]) := by decide
/-- B9, B10, B12: a sum of 383 is 0 and of 384 is 1; the channels in order red, green, blue. -/
theorem rasterDec_thresholds :
    let s := fun p => (withSrf (geometry .monochrome 1 1 1)).setPX { w := 1, h := 1, pixels := [p] }
    after (exec (.rasterDec 0 1) (s ⟨255, 128, 0⟩)) State.bb = some (b [0]) ∧
    after (exec (.rasterDec 0 1) (s ⟨255, 129, 0⟩)) State.bb = some (b [1]) ∧
    after (exec (.rasterDec 2 1) (s ⟨127, 255, 128⟩)) State.bb = some (b [0,1,1]) := by decide

/-- K1a, K1g. -/
theorem chunkBpf_K1 :
    after (exec .chunkBpf (withSrf (geometry .monochrome 10 1280 720))) (fun t => (t.srf.bpf, t.r0)) = some (some 1152, some 1152) ∧
    after (exec .chunkBpf (withSrf (geometry .color3 6 16 36))) State.r0 = some (some 6) := by decide
/-- K1c, K1f, K1i, K1j. -/
theorem chunkBpf_K1_faults :
    after (exec .chunkBpf (withSrf (geometry .monochrome 4 8 8))) (fun t => t.fault.code) = some 14 ∧
    after (exec .chunkBpf (withSrf (geometry .monochrome 12 8 18))) (fun t => t.fault.code) = some 14 ∧
    after (exec .chunkBpf (withSrf (geometry .monochrome 0 4 2))) (fun t => t.fault.code) = some 14 ∧
    after (exec .chunkBpf (withSrf (geometry .grayscale 1 4 2))) (fun t => t.fault.code) = some 13 := by decide
/-- K3a, K3h, K3i, K3k. -/
theorem chunkMaxblk_K3 :
    let s := withSrf (geometry .monochrome 1 1280 720)
    after (exec (.chunkMaxblk 844) s) State.r0 = some (some 20) ∧ after (exec (.chunkMaxblk 2303) s) State.r0 = some (some 20) ∧
    after (exec (.chunkMaxblk 2304) s) State.r0 = some (some 16) ∧
    after (exec (.chunkMaxblk 899) (withSrf (geometry .monochrome 1 30 30))) State.r0 = some (some 1) := by decide
/-- K3l. -/
theorem chunkMaxblk_K3l :
    let s := withSrf (geometry .monochrome 1 30 30)
    faulted s (exec (.chunkMaxblk 900) s) = some (14, true, true) := by decide
/-- K4 with `FSIZE` 0, 1, 1152, 1153, 2305: `(TFRAMES, UNUSED)`. -/
theorem chunkDerive_K4 :
    [0, 1, 1152, 1153, 2305].map (fun n => after
        (exec .chunkDerive (withSrf { openX with bpf := some 1152, fsize := some n }))
        (fun t => (t.srf.tframes, t.srf.unused, t.sealed))) =
      [some (some 0, some 0, true), some (some 1, some 1151, true), some (some 1, some 0, true), some (some 2, some 1151, true),
        some (some 3, some 1151, true)] := by decide
/-- K4h, K4j. -/
theorem chunkDerive_faults :
    faulted (withSrf openX.clearBpf) (exec .chunkDerive (withSrf openX.clearBpf)) = some (3, true, true) ∧
    faulted stateX (exec .chunkDerive stateX) = some (5, true, true) := by decide
theorem pageBuild_K5a :
    after (exec .pageBuild (stateX.setYB [0x69, 0x6A, 0x6B])) State.bb =
      some (b [0,1,1,0,1,0,0,1, 0,1,1,0,1,0,1,0, 0,1,1,0,1,0,1,1] ++ zeros 40) := by decide
theorem pageBuild_K5d :
    let s := stateX.setYB (List.replicate 9 0)
    faulted s (exec .pageBuild s) = some (15, true, true) := by decide
/-- K6a, K6b. -/
theorem pageUnpack_K6 :
    let s := stateX.setBB (b [0,1,1,0,1,0,0,1, 0,1,1,0,1,0,1,0, 0,1,1,0,1,0,1,1] ++ zeros 40)
    after (exec (.pageUnpack 1) s) (fun t => (t.yb, t.r0)) = some ([0x69, 0x6A, 0x6B], some 8) ∧
    after (exec (.pageUnpack 0) s) (fun t => (t.yb, t.r0)) = some ([0x69, 0x6A, 0x6B, 0, 0, 0, 0, 0], some 0) := by decide
/-- K6d, K6e, K6i. -/
theorem pageUnpack_K6_faults :
    let big := (withSrf { sealedX with unused := some 9 }).seal.setBB (zeros 64)
    faulted (stateX.setBB (zeros 63)) (exec (.pageUnpack 0) (stateX.setBB (zeros 63))) = some (17, true, true) ∧
    faulted (stateX.setBB (zeros 65)) (exec (.pageUnpack 2) (stateX.setBB (zeros 65))) = some (2, true, true) ∧
    faulted big (exec (.pageUnpack 1) big) = some (18, true, true) := by decide

/-- S2b, S3b and R35: a write of `W` clears `set(BPF)`, a write of `FPS` does not. -/
theorem sesSet_fields :
    after (exec (.sesSet 0 4) State.reset) (fun t => t.srf.mode) = some (some .color16) ∧
    after (exec (.sesSet 2 65535) (withSrf openX)) (fun t => (t.srf.w, t.srf.bpf)) = some (some 65535, none) ∧
    after (exec (.sesSet 4 30) (withSrf openX)) (fun t => (t.srf.fps, t.srf.bpf)) = some (some 30, some 8) := by decide
/-- S1, S2, S3, S5. -/
theorem sesSet_faults :
    after (exec (.sesSet 8 1) State.reset) (fun t => t.fault.code) = some 2 ∧
    after (exec (.sesSet 0 5) State.reset) (fun t => t.fault.code) = some 12 ∧
    after (exec (.sesSet 2 65536) State.reset) (fun t => t.fault.code) = some 2 ∧
    after (exec (.sesSet 4 30) stateX) (fun t => t.fault.code) = some 5 := by decide
/-- S6c: the empty string is a set field. -/
theorem sesSets_S6c : after (exec (.sesSets 6) State.reset) (fun t => t.srf.fname) = some (some []) := by decide
/-- S6, S6b. -/
theorem sesSets_S6 :
    after (exec (.sesSets 6) (State.reset.setYB (List.replicate 256 1))) (fun t => t.fault.code) = some 2 ∧
    after (exec (.sesSets 6) (State.reset.setYB (List.replicate 255 1))) (fun t => t.fault.code) = some 0 := by decide
/-- S4c, S5c. -/
theorem sesGet_S4c_S5c :
    after (exec (.sesGet 2) (withSrf (geometry .monochrome 1 1280 720))) State.r0 = some (some 1280) ∧
    after (exec (.sesGet 9) stateX) State.r0 = some (some 5) := by decide
/-- S4, S4b. -/
theorem sesGet_S4 :
    after (exec (.sesGet 2) State.reset) (fun t => t.fault.code) = some 3 ∧
    after (exec (.sesGet 5) State.reset) (fun t => t.fault.code) = some 2 := by decide
theorem sesGets_fname : after (exec (.sesGets 6) stateX) State.yb = some aTxt := by decide
/-- S7, S7b. -/
theorem sesGets_S7 :
    after (exec (.sesGets 6) State.reset) (fun t => t.fault.code) = some 3 ∧
    after (exec (.sesGets 1) State.reset) (fun t => t.fault.code) = some 2 := by decide
theorem ldBb_loads : after (exec (.ldBb 3 (b [1,0,0])) State.reset) State.bb = some (b [1,0,0]) := by decide
theorem stBb_answers :
    after (exec .stBb (withBB (b [0,1]))) State.response =
      some (some { status := .ok, cause := .noFault, r0 := none, data := .bits (b [0,1]) }) := by decide
theorem ldYb_loads : after (exec (.ldYb 3 [0x69, 0x6A, 0x6B]) State.reset) State.yb = some [0x69, 0x6A, 0x6B] := by decide
theorem stYb_answers :
    after (exec .stYb ((State.reset.setYB [7]).setR0 8)) State.response =
      some (some { status := .ok, cause := .noFault, r0 := some 8, data := .bytes [7] }) := by decide
theorem ldPx_loads :
    after (exec (.ldPx 2 1 [1, 2, 3, 4, 5, 6]) State.reset) State.px =
      some (some { w := 2, h := 1, pixels := [⟨1, 2, 3⟩, ⟨4, 5, 6⟩] }) := by decide
theorem ldPx_faults :
    after (exec (.ldPx 2 1 [1, 2, 3, 4, 5]) State.reset) (fun t => t.fault.code) = some 2 ∧
    after (exec (.ldPx 65536 0 []) State.reset) (fun t => t.fault.code) = some 2 := by decide
theorem stPx_answers :
    after (exec .stPx (State.reset.setPX { w := 1, h := 1, pixels := [⟨1, 2, 3⟩] })) (fun t => t.response.map Response.data) =
      some (some (.frame 1 1 [1, 2, 3])) := by decide
theorem stPx_S8 : faulted State.reset (exec .stPx State.reset) = some (4, true, true) := by decide

/-- S10, S10c, S10d: a halted CORE answers the stored cause, an illegal command does not replace it, reset frees the CORE. -/
theorem halted_S10 :
    after (exec .stBb halted) (fun t => (t.fault.code, t.response.map Response.data)) = some (2, some .absent) ∧
    after (step (issued halted (b [0,0,0,0, 0,0,0,0]))) (fun t => t.fault.code) = some 2 ∧
    after (step (halted.setInbox [.reset])) (fun t => decide (t = State.reset)) = some true := by decide

/-! ## Host sequences -/

/-- What a part of a run leaves, when it is not aborted. -/
def runEnd {α β : Type} (part : Run α) (s : State) (f : HostSide → β) : Option β :=
  match part (HostSide.start s) with
  | (h, .ok _) => some (f h)
  | (_, .error _) => none

/-- How a run was aborted, and whether the CORE is halted. -/
def abortOf {α : Type} (ending : HostSide × Except Abort α) : Option (Abort × Bool) :=
  match ending with
  | (_, .ok _) => none
  | (h, .error a) => some (a, h.core.halt)

/-- Program P1 up to command 11: `SESSION.ENC` gives Session X. -/
theorem sequence_session_enc :
    runEnd (Run.ops (pseudoSessionEnc 0 4 32 32 11 ck aTxt)) State.reset
      (fun h => (decide (h.core.srf = sealedX), h.core.sealed, h.core.r0)) = some (true, true, some 2) := by decide +kernel

/-- An encode job: a file as Session X's, with a sink that takes `n` frames. -/
def jobX (file : Option Bytes) (n : Option Nat) : EncodeJob :=
  { file := file, name := aTxt, mode := 0, edge := 4, width := 32, height := 32, fps := none, sinkTakes := n }

/-- R276, R312: the ends of an encode run of one byte, each with the frames sunk: done after the header frame and the payload frame, or
ended by a sink that takes one. -/
theorem sequence_encode_ends :
    (let run := encodeRun (jobX (some [7]) none) State.reset;
      run.2 = .ok () ∧ run.1.sunk.length = 2) ∧
    (let run := encodeRun (jobX (some [7]) (some 1)) State.reset;
      run.2 = .error .sinkFailed ∧ run.1.sunk.length = 1) := by decide +kernel

/-- R266, R276: a decode run that is done: the header of an empty file, in a 32 x 32 frame of single pixels, and no payload frame. -/
theorem sequence_decode_done :
    let header := headerBits { mode := .monochrome, checksum := ck, fname := aTxt, psize := 4, unused := 0, tframes := 0 };
    let frame := (Raster.encode { density := .monochrome, edge := 1, width := 32, height := 32 } header).transfer;
    let run := decodeRun { width := 32, height := 32, stream := some [frame] } List.range State.reset;
    run.2.isOk = true := by decide +kernel

/-- The session of program P3 up to `CHUNK.DERIVE`, less its strings. -/
def stateP3 : State := (withSrf { geometry .color3 2 8 8 with bpf := some 6, tframes := some 2, unused := some 5 }).seal

/-- The Color3 page of program P3: what `FRAME.ENC` hands to the sink for `E4 1B FF 00 A5 5A`, two rows of blocks at a time. -/
def frameP3 : Bytes :=
  (([[7, 1, 0, 1], [5, 7, 7, 7], [0, 0, 1, 2], [2, 5, 3, 2]].map fun row =>
    let line := row.flatMap fun n => (List.replicate 2 ((decToBin n 3).map channelOf)).flatten
    line ++ line).flatten)

/-- Program P3, commands 11 to 15: the page through `FRAME.ENC` to the sink. -/
theorem sequence_frame_encoded :
    runEnd ((Run.ops (pseudoFrameEnc 2 2 [0xE4, 0x1B, 0xFF, 0x00, 0xA5, 0x5A])).andThen fun _ => Run.sinkFrame
        { file := none, name := [], mode := 2, edge := 2, width := 8, height := 8, fps := none, sinkTakes := some 1 }) stateP3
      (fun h => decide (h.sunk = [frameP3])) = some true := by decide

/-- The same frame fetched from a source and reconstructed as payload frame 0. -/
theorem sequence_frame_reconstructed :
    runEnd (reconstruct { width := 8, height := 8, stream := none } [[], frameP3] 2 2 0) stateP3
      (fun u => (u.dest, u.core.r0)) = some ([0xE4, 0x1B, 0xFF, 0x00, 0xA5, 0x5A], some 0) := by decide

/-- R312: an input that cannot be opened, a source without a frame and a sink that takes none end the run with the CORE unhalted; R276: a
`FAULT` response ends it with the CORE halted. -/
theorem sequence_aborts :
    abortOf (encodeRun { file := none, name := [], mode := 0, edge := 1, width := 4, height := 2, fps := none, sinkTakes := none }
      State.reset) = some (.sourceNotFound, false) ∧
    abortOf (decodeRun { width := 4, height := 2, stream := some [] } List.range State.reset) = some (.sourceFailed, false) ∧
    abortOf (((Run.ops (pseudoFrameEnc 2 2 [1])).andThen fun _ => Run.sinkFrame
      { file := none, name := [], mode := 2, edge := 2, width := 8, height := 8, fps := none, sinkTakes := some 0 })
      (HostSide.start stateP3)) = some (.sinkFailed, false) ∧
    abortOf (decodeRun { width := 4, height := 2, stream := some [[]] } List.range State.reset)
      = some (.faulted .operandRange, true) ∧
    abortOf (Run.issue (.sesSet 7 (2 ^ 64)) (HostSide.start State.reset)) = some (.noOperandField, false) := by decide

/-- R276: what an aborted run had written stays: frame 1 is missing, frame 0's bytes are in the destination file. -/
theorem sequence_abort_keeps_dest :
    (Run.each [0, 1] (reconstruct { width := 8, height := 8, stream := none } [[], List.replicate 192 255] 2 2)
      (HostSide.start stateP3)).1.dest = List.replicate 6 255 := by decide

/-! ## Other parameters (R8) -/

/-- At `XLEN = 32` an operand field has 32 bits. -/
theorem params_field_width : decode small (b [0,1,0,1, 0,0,1,0] ++ zeros 28 ++ b [1,0,1,0]) = .ok (.sesGet 10) := by decide
/-- `BUF_MAX = 844`: R131 and R236 raise `OperandRange` at 845; `STR_MAX = 65`: R232 at 66. -/
theorem params_limits :
    after (exec (.dec2bin 1 845) (smallWith Srf.reset)) (fun t => t.fault.code) = some 2 ∧
    after (exec (.ldBb 844 (zeros 844)) (smallWith Srf.reset)) (fun t => t.fault.code) = some 0 ∧
    after (exec (.ldBb 845 (zeros 845)) (smallWith Srf.reset)) (fun t => t.fault.code) = some 2 ∧
    after (exec (.sesSets 6) ((smallWith Srf.reset).setYB (List.replicate 66 1))) (fun t => t.fault.code) = some 2 := by decide
/-- R298: results that exceed `2^XLEN` or `BUF_MAX`. -/
theorem params_overflow :
    after (exec (.rasterCap 0 1) (smallWith (geometry .monochrome 1 0x10000 0x10000))) (fun t => t.fault.code) = some 19 ∧
    after (exec .pageBuild (smallWith { openX with bpf := some 106 })) (fun t => t.fault.code) = some 19 ∧
    after (exec .pageBuild (smallWith { openX with bpf := some 105 })) (fun t => t.bb.length) = some 840 := by decide

theorem identity_counts_commands : identity.commands = commandWords.length ∧ identity.name = "ytstorage CORE" := by decide

/-! ## Witnesses: for every statement with hypotheses, states and operands that meet them, each clause at a boundary -/

theorem witness_DecodeOfEncode :
    (Instr.ldBb 0 []).wellFormed Params.defaults = true ∧ (Instr.ldYb 1 [255]).wellFormed Params.defaults = true ∧
    (Instr.sesSet 7 0xFFFFFFFFFFFFFFFF).wellFormed Params.defaults = true ∧
    (Instr.sesSet 7 0xFFFFFFFF).wellFormed small = true := by decide

theorem witness_EncodeOfDecode : dec (pk 0x31 [0, 0xFFFFFFFFFFFFFFFF] []) = .ok (.rasterEnc 0 0xFFFFFFFFFFFFFFFF) := by decide

theorem witness_IllegalCommandWords :
    (State.reset.halt = false ∧ (0x00 : Byte) ∉ commandWords ∧
      (issued State.reset (decToBin (0x00 : Byte).toNat 8 ++ [])).inbox = .command (decToBin (0x00 : Byte).toNat 8 ++ []) :: []) ∧
    (State.reset.halt = false ∧ (0xFF : Byte) ∉ commandWords) ∧
    (0x10 : Byte) ∈ commandWords ∧ (0x59 : Byte) ∈ commandWords := by decide

theorem witness_StepRunsDecodedCommand :
    (issued State.reset (pk 0x55 [] [])).inbox = .command (pk 0x55 [] []) :: [] ∧
    dec (pk 0x55 [] []) = .ok .stBb := by decide

theorem witness_StepIdlesOrRefusesMalformed :
    State.reset.inbox = [] ∧
    (State.reset.halt = false ∧ (issued State.reset []).inbox = .command [] :: [] ∧
      dec [] = .error (.malformed .noCommandWord)) := by decide

theorem witness_HaltedCoreRefusesEverything :
    halted.halt = true ∧ (issued halted [true]).halt = true ∧ (issued halted [true]).inbox = .command [true] :: [] := by decide

theorem witness_ResetEventRestoresReset : (halted.setInbox [.reset, .reset]).inbox = .reset :: [.reset] := by decide

/-- Session X's registers are within their widths. -/
theorem sized_stateX : stateX.Sized where
  paramsValid := Params.defaults_valid
  psizeFits := by intro v hv; cases (Option.some.inj hv); decide
  wFits := by intro v hv; cases (Option.some.inj hv); decide
  hFits := by intro v hv; cases (Option.some.inj hv); decide
  fpsFits := by intro v hv; exact nomatch hv
  checksumFits := by intro c hc; cases (Option.some.inj hc); decide
  fnameFits := by intro c hc; cases (Option.some.inj hc); decide
  fsizeFits := by intro v hv; cases (Option.some.inj hv); decide
  bpfFits := by intro v hv; cases (Option.some.inj hv); decide
  unusedFits := by intro v hv; cases (Option.some.inj hv); decide
  tframesFits := by intro v hv; cases (Option.some.inj hv); decide
  bbFits := rfl
  ybFits := rfl
  frameFits := by intro f hf; exact nomatch hf
  r0Fits := by intro v hv; exact nomatch hv

/-- Session X meets the invariant (its seal came from `CHUNK.DERIVE`), with a command pending or not. -/
theorem invariant_stateX (l : List HostEvent) : StateInv (stateX.setInbox l) where
  sized := { sized_stateX with }
  bpfSound := by
    intro v hv
    cases (Option.some.inj hv)
    exact ⟨by decide, .monochrome, .monochrome, 4, 32, 32, rfl, rfl, rfl, rfl, rfl, by decide⟩
  framesWithUnused := rfl
  framesSealed := fun _ => rfl
  sealOrigin := fun _ => .inl ⟨11, 8, 2, 5, rfl, rfl, rfl, rfl, by decide, by decide, by decide⟩
  haltWithFault := ⟨fun h => (nomatch h), fun h => absurd rfl h⟩
  responseTrue := by intro q hq; exact nomatch hq

/-- The smallest parameters meet the constraints of R8. -/
theorem small_valid : small.Valid :=
  ⟨by decide, by decide, by decide, by decide, fun m h => by cases Option.some.inj h; decide⟩

theorem witness_ResetMeetsInvariant : Params.defaults.Valid ∧ small.Valid := ⟨Params.defaults_valid, small_valid⟩

theorem witness_StepKeepsInvariant :
    ∃ s t : State, StateInv s ∧ step s = .next t ∧ t.bb = zeros 64 :=
  have ⟨t, ht, hb⟩ := next_of_after (r := step (stateX.setInbox [.command (pk 0x43 [] [])])) (f := State.bb)
    (v := zeros 64) (by decide)
  ⟨_, t, invariant_stateX _, ht, hb⟩

theorem witness_CommandsCompleteOrFaultPrecisely : State.reset.halt = false ∧ stateX.halt = false := by decide

theorem witness_SealedSessionIsImmutable :
    ∃ s t : State, s.sealed = true ∧ exec .chunkBpf s = .next t ∧ StateInv s ∧ s.srf.bpf = some 8 :=
  have ⟨t, ht, _⟩ := next_of_after (r := exec .chunkBpf stateX) (f := State.r0) (v := some 8) (by decide)
  ⟨_, t, rfl, ht, invariant_stateX [], rfl⟩

theorem witness_SealedSessionRefusesWriters :
    stateX.halt = false ∧ stateX.sealed = true ∧ 0 ∈ [0, 1, 2, 3, 4, 7] ∧ 7 ∈ [0, 1, 2, 3, 4, 7] ∧
    5 ∈ [5, 6] ∧ 6 ∈ [5, 6] := by decide

theorem witness_OnlyResetLeavesHalt :
    ∃ s t : State, s.halt = true ∧ step s = .next t ∧ (∀ rest, s.inbox ≠ .reset :: rest) :=
  have ⟨t, ht, _⟩ := next_of_after (r := step (issued halted [])) (f := State.halt) (v := true) (by decide)
  ⟨_, t, rfl, ht, by intro rest h; exact nomatch h⟩

theorem witness_RegistersHaveTheirWriters :
    ∃ t, exec .stBb State.reset = .next t ∧ writesBB .stBb = false ∧ writesYB .stBb = false ∧ writesPX .stBb = false ∧
      writesR0 .stBb = false ∧ writesSession .stBb = false ∧ sealsSession .stBb = false :=
  have ⟨t, ht, _⟩ := next_of_after (r := exec .stBb State.reset) (f := State.halt) (v := false) (by decide)
  ⟨t, ht, rfl, rfl, rfl, rfl, rfl, rfl⟩

theorem witness_VideoTypeLookup : 4 < 5 := by decide

theorem witness_Dec2binWritesTheNumber :
    State.reset.halt = false ∧ fitsBuffer small 845 = false ∧ fitsBuffer small 844 = true ∧
    fitsBuffer State.reset.params (2 ^ 64 - 1) = true ∧
    (1 ≤ 1 ∧ 1 < 2 ^ 1) ∧
    (1 ≤ 64 ∧ 0xFFFFFFFFFFFFFFFF < 2 ^ 64) ∧
    0 = 0 ∧ 2 ^ 8 ≤ 256 := by decide

theorem witness_Bin2decReadsTheNumber :
    State.reset.halt = false ∧ (1 ≤ (withBB [true]).bb.length ∧ bitsVal (withBB [true]).bb < 2 ^ State.reset.params.xlen) ∧
    State.reset.bb.length = 0 ∧ 2 ^ State.reset.params.xlen ≤ bitsVal (withBB (true :: zeros 64)).bb := by decide

theorem witness_Byte2bitsWritesEightBits :
    State.reset.halt = false ∧ State.reset.params.Valid ∧ 255 ≤ 255 ∧ 255 < 256 :=
  ⟨rfl, Params.defaults_valid, le_rfl, by decide⟩

theorem witness_Bits2byteReadsEightBits :
    State.reset.params.Valid ∧ State.reset.halt = false ∧ (withBB (zeros 8)).bb.length = 8 ∧ (withBB (zeros 7)).bb.length ≠ 8 ∧
    (withBB (zeros 9)).bb.length ≠ 8 := ⟨Params.defaults_valid, by decide⟩

theorem witness_Pages2bytesPacksChunks :
    State.reset.halt = false ∧ fitsBuffer State.reset.params (withBB (zeros 8)).bb.length = true ∧
    State.reset.bb.length % 8 = 0 ∧ (withBB (zeros 8)).bb.length % 8 = 0 ∧
    (withBB (zeros 9)).bb.length % 8 ≠ 0 := by decide

theorem witness_Bin2strDropsZeroBytes :
    State.reset.halt = false ∧ fitsBuffer State.reset.params (withBB (zeros 16)).bb.length = true ∧
    (withBB (zeros 16)).bb.length % 8 = 0 ∧ (withBB (zeros 1)).bb.length % 8 ≠ 0 := by decide

theorem witness_BitCodecLaws :
    (1 ≤ 1 ∧ 1 < 2 ^ 1) ∧ (zeros 8).length = 8 ∧ 1 ≤ [true].length ∧ (zeros 16).length % 8 = 0 := by decide

/-- A session with every header field at its largest. -/
def largestX : Srf :=
  { sealedX with
    fname := some (List.replicate 32 1), psize := some 255, unused := some 0xFFFFFFFF, tframes := some 0xFFFFFFFF }

theorem witness_HdrGenWritesTheLayout :
    let s := withSrf largestX;
    s.params.Valid ∧ s.halt = false ∧ s.srf.mode = some .monochrome ∧ s.srf.checksum = some ck ∧ s.srf.fname = some (List.replicate 32 1) ∧
    s.srf.psize = some 255 ∧ s.srf.unused = some 0xFFFFFFFF ∧ s.srf.tframes = some 0xFFFFFFFF ∧ ck.length = 64 ∧
    (List.replicate 32 (1 : Byte)).length ≤ 32 ∧ 255 < 2 ^ 8 ∧ 0xFFFFFFFF < 2 ^ 32 := ⟨Params.defaults_valid, by decide⟩

theorem witness_HdrGenFaultsInOrder :
    (State.reset.halt = false ∧ State.reset.srf.mode = none) ∧
    (let s := withSrf largestX;
      s.halt = false ∧ s.srf.mode = some .monochrome ∧ s.srf.checksum = some ck ∧ s.srf.psize = some 255 ∧
      s.srf.unused = some 0xFFFFFFFF ∧ s.srf.tframes = some 0xFFFFFFFF ∧ s.srf.fname = some (List.replicate 32 1)) ∧
    32 < (List.replicate 33 (1 : Byte)).length ∧
    ((List.replicate 32 (1 : Byte)).length ≤ 32 ∧ (ck.take 63).length ≠ 64) ∧
    (ck.length = 64 ∧ 2 ^ 8 ≤ 256 ∧ 2 ^ 32 ≤ 0x100000000) := by decide

theorem witness_HdrParseFillsTheSession :
    (stateX.halt = false ∧ stateX.sealed = true) ∧
    (let s := withBB (zeros 843);
      s.halt = false ∧ s.sealed = false ∧ s.bb.length < 844) ∧
    (let s := withBB (decToBin 5 4 ++ zeros 840);
      s.halt = false ∧ s.sealed = false ∧ 844 ≤ s.bb.length ∧ 4 < bitsVal (slice s.bb 0 4)) ∧
    (let s := withBB (decToBin 4 4 ++ zeros 840);
      s.halt = false ∧ s.sealed = false ∧ 844 ≤ s.bb.length ∧ bitsVal (slice s.bb 0 4) ≤ 4) := by decide

theorem witness_ParsedSessionIsBounded :
    ∃ s t : State, s.halt = false ∧ exec .hdrParse s = .next t ∧ t.halt = false :=
  have ⟨t, ht, hh⟩ := next_of_after (r := exec .hdrParse (withBB h1)) (f := State.halt) (v := false) (by decide)
  ⟨_, t, rfl, ht, hh⟩

theorem witness_HeaderRoundTrip :
    ck.length = 64 ∧ (List.replicate 32 (1 : Byte)).length ≤ 32 ∧ 255 < 2 ^ 8 ∧ 0xFFFFFFFF < 2 ^ 32 ∧ (0 : Byte) ∉ ck ∧
    (0 : Byte) ∉ List.replicate 32 (1 : Byte) := by decide

theorem witness_RasterCapCountsBits :
    let s := withSrf (geometry .monochrome 1 65535 65535);
    s.halt = false ∧ (0 = 0 ∧ 1 = 1) ∧ (2 = 2 ∧ 3 = 3) ∧ 65535 < 2 ^ State.reset.params.dimBits ∧
    s.srf.w = some 65535 ∧ s.srf.h = some 65535 ∧ 1 ≤ 65535 ∧ 65535 % 65535 = 0 ∧
    65535 / 65535 * (65535 / 65535) * 3 < 2 ^ s.params.xlen := by
  decide

/-- The overflow clause: a capacity of exactly `2^32` at `XLEN = 32`. -/
theorem witness_RasterCapCountsBits_overflow :
    let s := smallWith (geometry .monochrome 1 0x10000 0x10000);
    s.halt = false ∧ (0 = 0 ∧ 1 = 1) ∧ 1 < 2 ^ s.params.dimBits ∧ s.srf.w = some 0x10000 ∧ s.srf.h = some 0x10000 ∧
    1 ≤ 0x10000 ∧ 0x10000 % 1 = 0 ∧ 2 ^ s.params.xlen ≤ 0x10000 / 1 * (0x10000 / 1) * 1 := by decide

theorem witness_RasterFaultsInOrder :
    let s := withSrf (geometry .monochrome 1 4 0);
    s.halt = false ∧ Instr.rasterDec 0 3 ∈ [Instr.rasterCap 0 3, .rasterEnc 0 3, .rasterDec 0 3] ∧
    2 ^ State.reset.params.dimBits ≤ 65536 ∧ 65535 < 2 ^ State.reset.params.dimBits ∧ 4 < 5 ∧
    1 = 1 ∧ 4 = 4 ∧ (2 = 2 ∧ State.reset.srf.w = none) ∧
    (s.srf.w = some 4 ∧ s.srf.h = some 0 ∧ 0 = 0 ∧ 4 % 3 ≠ 0) := by decide

theorem witness_RasterEncPaintsBlocks :
    let s := withSrf (geometry .monochrome 2 4 2);
    s.halt = false ∧ (0 = 0 ∧ 1 = 1) ∧ 2 < 2 ^ State.reset.params.dimBits ∧ s.srf.w = some 4 ∧ s.srf.h = some 2 ∧
    1 ≤ 2 ∧ 4 % 2 = 0 ∧ 2 % 2 = 0 ∧
    4 / 2 * (2 / 2) * 1 < (s.setBB (zeros 3)).bb.length ∧
    (s.setBB (zeros 2)).bb.length ≤ 4 / 2 * (2 / 2) * 1 := by decide

theorem witness_RasterDecSamplesCentres :
    let s := withSrf (geometry .monochrome 4 4 4);
    s.halt = false ∧ (2 = 2 ∧ 3 = 3) ∧ 4 < 2 ^ State.reset.params.dimBits ∧ s.srf.w = some 4 ∧ s.srf.h = some 4 ∧
    1 ≤ 4 ∧ 4 % 4 = 0 ∧ s.px = none ∧
    ((s.setPX { dot 2 2 with w := 2 }).px = some { dot 2 2 with w := 2 } ∧ 2 ≠ 4) ∧
    ((s.setPX (dot 2 2)).px = some (dot 2 2) ∧ (dot 2 2).w = 4 ∧ (dot 2 2).h = 4) ∧
    fitsBuffer s.params (4 / 4 * (4 / 4) * 3) = true := by decide

/-- The `BUF_MAX` clause: a capacity of 845 bits at `BUF_MAX = 844`. -/
theorem witness_RasterDecSamplesCentres_overflow :
    let f : Frame := { w := 845, h := 1, pixels := [] };
    let s := (smallWith (geometry .monochrome 1 845 1)).setPX f;
    s.halt = false ∧ (0 = 0 ∧ 1 = 1) ∧ 1 < 2 ^ s.params.dimBits ∧ s.srf.w = some 845 ∧ s.srf.h = some 1 ∧ 845 % 1 = 0 ∧
    s.px = some f ∧ f.w = 845 ∧ f.h = 1 ∧ fitsBuffer s.params (845 / 1 * (1 / 1) * 1) = false := by decide

theorem witness_RasterRoundTrip :
    let g : Raster := { density := .color3, edge := 2, width := 4, height := 2 };
    1 ≤ g.edge ∧ 1 ≤ g.width ∧ 1 ≤ g.height ∧ g.width % g.edge = 0 ∧ g.height % g.edge = 0 ∧
    (zeros 6).length ≤ g.capacity := by decide

/-- A white pixel moved by 126 levels on each channel. -/
theorem witness_DecodeToleratesSmallShifts :
    let g : Raster := { density := .monochrome, edge := 1, width := 1, height := 1 };
    let f : Frame := { w := 1, h := 1, pixels := [⟨129, 129, 129⟩] }
    1 ≤ g.edge ∧ 1 ≤ g.width ∧ 1 ≤ g.height ∧ g.width % g.edge = 0 ∧ g.height % g.edge = 0 ∧
    [true].length ≤ g.capacity ∧ g.blocks = 1 ∧
    (let p := f.pixel (g.centreX 0) (g.centreY 0);
      let q := (g.encode [true]).pixel (g.centreX 0) (g.centreY 0);
      p.r.toNat < q.r.toNat + 127 ∧ q.r.toNat < p.r.toNat + 127 ∧ p.g.toNat < q.g.toNat + 127 ∧ q.g.toNat < p.g.toNat + 127 ∧
      p.b.toNat < q.b.toNat + 127 ∧ q.b.toNat < p.b.toNat + 127) := by decide

theorem witness_ChunkBpfComputesBytesPerFrame :
    (State.reset.halt = false ∧ State.reset.srf.mode = none) ∧
    (let s := withSrf (geometry .grayscale 1 4 2);
      s.halt = false ∧ s.srf.mode = some .grayscale ∧ s.srf.psize = some 1 ∧ s.srf.w = some 4 ∧ s.srf.h = some 2 ∧
      VideoMode.grayscale.code = 1) ∧
    ((VideoMode.color3.code = 2 ∧ 3 = 3) ∧ 0 = 0 ∧ 8 * 8 * 1 % (4 * 4) = 0 ∧ 8 * 8 * 1 / (4 * 4) % 8 ≠ 0) ∧
    (let s := withSrf (geometry .monochrome 1 4 2);
      s.srf.mode = some .monochrome ∧ (VideoMode.monochrome.code = 0 ∧ 1 = 1) ∧ 1 ≤ 1 ∧ 1 ≤ 4 ∧
      4 * 2 * 1 % (1 * 1) = 0 ∧
      4 * 2 * 1 / (1 * 1) % 8 = 0 ∧ 4 * 2 * 1 / (1 * 1) / 8 < 2 ^ s.params.xlen) ∧
    (let s := smallWith (geometry .monochrome 1 0x40000 0x20000);
      s.halt = false ∧ s.srf.mode = some .monochrome ∧ s.srf.w = some 0x40000 ∧ s.srf.h = some 0x20000 ∧
      0x40000 * 0x20000 * 1 % (1 * 1) = 0 ∧ 0x40000 * 0x20000 * 1 / (1 * 1) % 8 = 0 ∧
      2 ^ s.params.xlen ≤ 0x40000 * 0x20000 * 1 / (1 * 1) / 8) := by decide

theorem witness_CapacityIsEightBytesPerFrame :
    32 % 4 = 0 ∧ bytesPerFrame .monochrome 4 32 32 = .ok 8 := by decide

theorem witness_ChunkMaxblkFindsTheLargest :
    (stateX.halt = false ∧ stateX.Sized ∧ stateX.srf.w = some 32 ∧ stateX.srf.h = some 32 ∧ 1023 < 32 * 32) ∧
    (State.reset.halt = false ∧ State.reset.srf.w = none) ∧
    (let s := withSrf (geometry .monochrome 1 30 30);
      s.halt = false ∧ s.srf.w = some 30 ∧ s.srf.h = some 30 ∧ 30 * 30 ≤ 900 ∧
      899 < 30 * 30) := ⟨⟨rfl, sized_stateX, rfl, rfl, by decide⟩, by decide⟩

/-- Before its `CHUNK.DERIVE` Session X is within its widths too, with `BPF` at its least. -/
theorem sized_openX : (withSrf { openX with bpf := some 1 }).Sized :=
  { sized_stateX with
    bpfFits := by intro v hv; cases (Option.some.inj hv); decide
    unusedFits := by intro v hv; exact nomatch hv
    tframesFits := by intro v hv; exact nomatch hv }

theorem witness_ChunkDeriveSealsTheSession :
    (withSrf { openX with bpf := some 1 }).Sized ∧
    (stateX.halt = false ∧ stateX.sealed = true) ∧
    (State.reset.halt = false ∧ State.reset.sealed = false ∧ State.reset.srf.mode = none) ∧
    (let s := withSrf { openX with bpf := some 1 };
      s.halt = false ∧ s.sealed = false ∧ s.srf.mode = some .monochrome ∧ s.srf.psize = some 4 ∧ s.srf.w = some 32 ∧
      s.srf.h = some 32 ∧ s.srf.checksum = some ck ∧ s.srf.fname = some aTxt ∧ s.srf.fsize = some 11 ∧ s.srf.bpf = some 1 ∧
      1 ≤ 1) := ⟨sized_openX, by decide⟩

theorem witness_PageBuildPadsThePage :
    (State.reset.halt = false ∧ State.reset.srf.bpf = none) ∧ (stateX.halt = false ∧ stateX.srf.bpf = some 8) ∧
    8 < (stateX.setYB (List.replicate 9 1)).yb.length ∧
    (stateX.setYB (List.replicate 8 1)).yb.length ≤ 8 ∧ fitsBuffer stateX.params (8 * 8) = true ∧
    (let s := smallWith { openX with bpf := some 106 };
      s.halt = false ∧ s.srf.bpf = some 106 ∧ s.yb.length ≤ 106 ∧ fitsBuffer s.params (8 * 106) = false) := by decide

theorem witness_PageUnpackTrimsAndLocates :
    (State.reset.halt = false ∧ State.reset.srf.bpf = none) ∧
    (stateX.halt = false ∧ stateX.srf.bpf = some 8 ∧ stateX.srf.tframes = some 2 ∧ stateX.srf.unused = some 5) ∧
    2 ≤ 2 ∧
    (1 < 2 ∧ (stateX.setBB (zeros 63)).bb.length ≠ 8 * 8) ∧
    ((stateX.setBB (zeros 64)).bb.length = 8 * 8 ∧ 1 + 1 = 2 ∧
      8 < 9 ∧ 3 + 5 = 8 ∧
      fitsBuffer stateX.params (stateX.setBB (zeros 64)).bb.length = true ∧ 1 * 8 < 2 ^ State.reset.params.xlen ∧
      2 ^ State.reset.params.xlen ≤ 0x2000000000000000 * 8) ∧
    (0 + 1 < 2 ∧ 8 = 8) := by decide

theorem witness_ChunkingRoundTrip : 1 ≤ 1 ∧ 0 < totalFrames 1 1 ∧ 0 < [(7 : Byte)].length := by decide

theorem witness_NoResultOverflow :
    ∃ s t : State, s.params = Params.defaults ∧ StateInv s ∧ s.halt = false ∧ exec (.sesGet 10) s = .next t :=
  have ⟨t, ht, _⟩ := next_of_after (r := exec (.sesGet 10) stateX) (f := State.r0) (v := some 2) (by decide)
  ⟨_, t, rfl, invariant_stateX [], rfl, ht⟩

theorem witness_SesSetWritesTheField :
    State.reset.halt = false ∧ 5 ∉ [0, 1, 2, 3, 4, 7] ∧ 11 ∉ [0, 1, 2, 3, 4, 7] ∧
    (7 ∈ [0, 1, 2, 3, 4, 7] ∧ stateX.sealed = true) ∧ State.reset.sealed = false ∧
    (0 = 0 ∧ 4 < 5) ∧
    (4 ∈ [1, 2, 3, 4] ∧ 2 ^ State.reset.params.dimBits ≤ 65536) ∧
    4 = VideoMode.color16.code ∧ 65535 = 65535 ∧
    1 = 1 ∧ 2 = 2 ∧ 3 = 3 ∧ 4 = 4 ∧ 7 = 7 := by decide

theorem witness_SesSetsWritesTheString :
    State.reset.halt = false ∧ (4 ≠ 5 ∧ 4 ≠ 6) ∧ 5 = 5 ∧ 6 = 6 ∧
    stateX.sealed = true ∧ State.reset.sealed = false ∧ State.reset.params.strMax < (State.reset.setYB (List.replicate 256 1)).yb.length ∧
    (State.reset.setYB (List.replicate 255 1)).yb.length ≤ State.reset.params.strMax := by decide

theorem witness_SesGetReadsTheField :
    stateX.Sized ∧ State.reset.halt = false ∧ 6 ∉ [0, 1, 2, 3, 4, 7, 8, 9, 10] ∧
    (10 ∈ [0, 1, 2, 3, 4, 7, 8, 9, 10] ∧ State.reset.srf.isSet 10 = false) ∧
    (0 = 0 ∧ stateX.srf.mode.map VideoMode.code = some 0) ∧
    (3 = 3 ∧ stateX.srf.h = some 32) ∧
    (10 = 10 ∧ stateX.srf.tframes = some 2) := ⟨sized_stateX, by decide⟩

theorem witness_SesGetsReadsTheString :
    stateX.Sized ∧ State.reset.halt = false ∧ (7 ≠ 5 ∧ 7 ≠ 6) ∧
    (5 = 5 ∧ State.reset.srf.checksum = none) ∧ (6 = 6 ∧ State.reset.srf.fname = none) ∧
    (5 = 5 ∧ stateX.srf.checksum = some ck) ∧ (6 = 6 ∧ stateX.srf.fname = some aTxt) :=
  ⟨sized_stateX, by decide⟩

theorem witness_BufferLoadsAndStores :
    State.reset.halt = false ∧ ([] : Bits).length = 0 ∧ [true].length = 1 ∧ ([] : Bytes).length = 0 ∧
    fitsBuffer State.reset.params 1 = true ∧ fitsBuffer small 844 = true ∧ fitsBuffer small 845 = false ∧
    (zeros 845).length = 845 ∧ (List.replicate 845 (0 : Byte)).length = 845 := by decide

theorem witness_LdPxLoadsTheFrame :
    State.reset.halt = false ∧ 2 ^ State.reset.params.dimBits ≤ 65536 ∧
    ([] : Bytes).length ≠ 1 * 1 * 3 ∧
    (65535 < 2 ^ State.reset.params.dimBits ∧ ([] : Bytes).length = 65535 * 0 * 3) ∧
    ([1, 2, 3] : Bytes).length = 1 * 1 * 3 := by decide

theorem witness_StPxCarriesTheFrame :
    (State.reset.halt = false ∧ State.reset.px = none) ∧
    ((State.reset.setPX (dot 1 1)).halt = false ∧ (State.reset.setPX (dot 1 1)).px = some (dot 1 1) ∧
      (dot 1 1).pixels.length = (dot 1 1).w * (dot 1 1).h) := by decide

/-- Two COREs with Session X, the same page and frame, and a different history (`R0`): the commands answer on both. -/
theorem witness_FrameResultsArePure :
    let s := ((stateX.setBB (zeros 64)).setPX (dot 0 0)).setYB [1];
    let u := s.setR0 9;
    s.halt = false ∧ u.halt = false ∧ s.params = u.params ∧ s.srf = u.srf ∧ s.fault = u.fault ∧ s.bb = u.bb ∧ s.px = u.px ∧ s.yb = u.yb ∧
    after (exec .pageBuild s) State.halt = some false ∧ after (exec .pageBuild u) State.halt = some false ∧
    after (exec (.pageUnpack 1) s) State.halt = some false ∧ after (exec (.pageUnpack 1) u) State.halt = some false ∧
    after (exec (.rasterDec 0 4) s) State.halt = some true ∧ after (exec (.rasterDec 0 4) u) State.halt = some true ∧
    after (exec (.rasterEnc 0 4) s) State.halt = some false ∧ after (exec (.rasterEnc 0 4) u) State.halt = some false := by decide

theorem witness_FpsIsInert :
    ∃ t t' : State, (∀ f, Instr.pageBuild ≠ .sesGet f) ∧ exec .pageBuild stateX = .next t ∧
      exec .pageBuild { stateX with srf := { stateX.srf with fps := some 30 } } = .next t' :=
  have ⟨t, ht, _⟩ := next_of_after (r := exec .pageBuild stateX) (f := State.halt) (v := false) (by decide)
  have ⟨t', ht', _⟩ := next_of_after (r := exec .pageBuild { stateX with srf := { stateX.srf with fps := some 30 } })
    (f := State.halt) (v := false) (by decide)
  ⟨t, t', fun f h => Instr.noConfusion h, ht, ht'⟩

theorem witness_ParametersAreFixed :
    (∃ s t : State, step s = .next t ∧ s.params = small) ∧ ∃ t, exec .stBb (smallWith Srf.reset) = .next t :=
  have ⟨t, ht, _⟩ := next_of_after (r := step ((smallWith Srf.reset).setInbox [.reset])) (f := State.halt) (v := false) (by decide)
  have ⟨u, hu, _⟩ := next_of_after (r := exec .stBb (smallWith Srf.reset)) (f := State.halt) (v := false) (by decide)
  ⟨⟨_, t, ht, rfl⟩, u, hu⟩

/-- The other ends of a run, each met by a job on the reset CORE: the input missing, a source without a frame, a fault. The done ends and a
failing sink are in `sequence_encode_ends` and `sequence_decode_done`. -/
theorem witness_RunsEndAsTheSpecSays :
    State.reset.halt = false ∧ (jobX none none).file = none ∧
    (encodeRun { jobX (some []) none with mode := 5 } State.reset).2 = .error (.faulted .unrecognizedVideoType) ∧
    (decodeRun { width := 0, height := 0, stream := none } List.range State.reset).2 = .error .sourceNotFound ∧
    (decodeRun { width := 32, height := 32, stream := some [] } List.range State.reset).2 = .error .sourceFailed ∧
    (decodeRun { width := 65536, height := 0, stream := some [] } List.range State.reset).2 = .error (.faulted .operandRange) := by
  decide

end Sys2Proof.Tests
end

section
/-! PROOFS. Two layers and the two statements of spec file 00_scope.md: the weighted sum of R12 by induction on the bit sequence, and
everything that a command, an event or a step can do to the state, from which the constancy of the parameters (R8) follows. -/

namespace Sys2Proof.Machine

/-! ## The weighted sum of R12 -/

/-- The sum of R12, `b[i] * 2^(len(b)-1-i)` over the positions of `b`. -/
def weightedSum (b : Bits) : Nat :=
  ((List.range b.length).map fun i => (b.getD i false).toNat * 2 ^ (b.length - 1 - i)).sum

@[simp] theorem weightedSum_nil : weightedSum [] = 0 := rfl

/-- The first bit weighs `2^(len - 1)`, and every other bit weighs in the whole what it weighs in the rest. -/
@[simp] theorem weightedSum_cons (x : Bool) (b : Bits) : weightedSum (x :: b) = x.toNat * 2 ^ b.length + weightedSum b := by
  have weight (i : Nat) : b.length - 1 - i = b.length - (i + 1) := by omega
  simp only [weightedSum, List.length_cons, List.range_succ_eq_map, List.map_cons, List.map_map, Function.comp_def,
    List.sum_cons, List.getD_cons_zero, List.getD_cons_succ, Nat.add_sub_cancel, Nat.sub_zero, weight]

/-- Horner's scheme computes the weighted sum. -/
theorem bitsVal_eq_weightedSum (b : Bits) : bitsVal b = weightedSum b := by
  induction b with
  | nil => rfl
  | cons x b ih => rw [bitsVal_cons, weightedSum_cons, ih]

/-- Settles O19, by the recursion that Horner's scheme and the weighted sum share. -/
theorem bitsValIsTheWeightedSum : Obligations.BitsValIsTheWeightedSum :=
  bitsVal_eq_weightedSum

/-! ## What the work of a command writes -/

/-- `u` differs from `s` at most in the registers that a command's work may write: the session, `SEALED`, `BB`, `YB`, `PX`, `R0` (R21).
What is left is written where the command ends (`HALT`, `FAULT`, the response), by the port (the inbox), or by nothing (the
parameters). -/
structure OnlyRegistersWritten (s u : State) : Prop where
  params : u.params = s.params
  halt : u.halt = s.halt
  fault : u.fault = s.fault
  inbox : u.inbox = s.inbox
  response : u.response = s.response

namespace OnlyRegistersWritten

theorem unwritten (s : State) : OnlyRegistersWritten s s := ⟨rfl, rfl, rfl, rfl, rfl⟩

section
variable {s u : State} (h : OnlyRegistersWritten s u)
include h

theorem setSrf (v : Srf) : OnlyRegistersWritten s (u.setSrf v) := { h with }
theorem sealSession : OnlyRegistersWritten s u.seal := { h with }
theorem setBB (v : Bits) : OnlyRegistersWritten s (u.setBB v) := { h with }
theorem setYB (v : Bytes) : OnlyRegistersWritten s (u.setYB v) := { h with }
theorem setPX (v : Frame) : OnlyRegistersWritten s (u.setPX v) := { h with }
theorem setR0 (v : Nat) : OnlyRegistersWritten s (u.setR0 v) := { h with }

end

end OnlyRegistersWritten

/-- Work begun in `s` that leaves, when it completes, a state in which only registers are written. -/
def WorkWritesRegisters (s : State) (w : Work State) : Prop :=
  ∀ u, w = .ok u → OnlyRegistersWritten s u

namespace WorkWritesRegisters

variable {s : State}

/-- A check or a read in front of work writes nothing. -/
theorem after {α : Type} {x : Work α} {f : α → Work State} (h : ∀ a, WorkWritesRegisters s (f a)) :
    WorkWritesRegisters s (x >>= f) := fun u hu =>
  have ⟨a, _, ha⟩ := (work_bind_ok x f u).mp hu
  h a u ha

/-- Work that goes on from the state which other work left. -/
theorem andThen {x : Work State} {f : State → Work State} (hx : WorkWritesRegisters s x)
    (hf : ∀ t, OnlyRegistersWritten s t → WorkWritesRegisters s (f t)) : WorkWritesRegisters s (x >>= f) := fun u hu =>
  have ⟨t, ht, htu⟩ := (work_bind_ok x f u).mp hu
  hf t (hx t ht) u htu

theorem done {u : State} (h : OnlyRegistersWritten s u) : WorkWritesRegisters s (pure u) := fun v hv =>
  (work_pure_ok u v).mp hv ▸ h

theorem storesBB (b : Bits) : WorkWritesRegisters s (storeBB s b) := fun u hu => by
  obtain ⟨-, rfl⟩ := (storeBB_ok s u b).mp hu
  exact (OnlyRegistersWritten.unwritten s).setBB b

theorem storesYB (y : Bytes) : WorkWritesRegisters s (storeYB s y) := fun u hu => by
  obtain ⟨-, rfl⟩ := (storeYB_ok s u y).mp hu
  exact (OnlyRegistersWritten.unwritten s).setYB y

theorem storesR0 (v : Nat) : WorkWritesRegisters s (storeR0 s v) := fun u hu => by
  obtain ⟨-, rfl⟩ := (storeR0_ok s u v).mp hu
  exact (OnlyRegistersWritten.unwritten s).setR0 v

end WorkWritesRegisters

/-! ## What a command does -/

/-- A result is the end of some work begun in `s` that writes registers only. -/
def RunsRegisterWork (s : State) (r : Result) : Prop :=
  ∃ w, r = runCommand s w ∧ ∀ u d, w = .ok (u, d) → OnlyRegistersWritten s u

theorem runsRegisterWork_silent {s : State} {w : Work State} (h : WorkWritesRegisters s w) :
    RunsRegisterWork s (runCommand s (silent w)) :=
  ⟨_, rfl, fun u d hu => h u ((silent_ok w u d).mp hu).1⟩

/-- `ST.BB` and `ST.YB`, whose work is to answer a buffer. -/
theorem runsRegisterWork_answer (s : State) (d : ResponseData) : RunsRegisterWork s (runCommand s (.ok (s, d))) :=
  ⟨_, rfl, by rintro u _ ⟨⟩; exact .unwritten s⟩

/-- `ST.PX` answers the frame it has read. -/
theorem runsRegisterWork_stPx (s : State) : RunsRegisterWork s (execStPx s) := by
  refine ⟨_, rfl, fun u d hu => ?_⟩
  obtain ⟨f, -, hf⟩ := (work_bind_ok _ _ _).mp hu
  obtain ⟨rfl, -⟩ := Prod.mk.inj ((work_pure_ok _ _).mp hf)
  exact .unwritten s

open WorkWritesRegisters OnlyRegistersWritten in
/-- Each command of R95 is checks and reads, which write nothing, then its writes. -/
theorem exec_runsRegisterWork (i : Instr) (s : State) : RunsRegisterWork s (exec i s) := by
  cases i with
  | dec2bin value width => exact runsRegisterWork_silent (after fun _ => after fun _ => after fun _ => storesBB _)
  | bin2dec => exact runsRegisterWork_silent (after fun _ => after fun _ => storesR0 _)
  | byte2bits v => exact runsRegisterWork_silent (after fun _ => storesBB _)
  | bits2byte => exact runsRegisterWork_silent (after fun _ => storesR0 _)
  | pages2bytes => exact runsRegisterWork_silent (after fun _ => storesYB _)
  | bin2str => exact runsRegisterWork_silent (after fun _ => storesYB _)
  | hdrGen =>
    refine runsRegisterWork_silent ?_
    repeat refine after fun _ => ?_
    exact storesBB _
  | hdrParse => exact runsRegisterWork_silent (after fun _ => after fun _ => after fun _ => done ((unwritten s).setSrf _).sealSession)
  | rasterCap mode edge => exact runsRegisterWork_silent (after fun _ => storesR0 _)
  | rasterEnc mode edge => exact runsRegisterWork_silent (after fun _ => after fun _ => done ((unwritten s).setPX _))
  | rasterDec mode edge => exact runsRegisterWork_silent (after fun _ => after fun _ => after fun _ => storesBB _)
  | chunkBpf =>
    refine runsRegisterWork_silent ?_
    repeat refine after fun _ => ?_
    exact done (((unwritten s).setSrf _).setR0 _)
  | chunkMaxblk required => exact runsRegisterWork_silent (after fun _ => after fun _ => after fun _ => storesR0 _)
  | chunkDerive =>
    refine runsRegisterWork_silent ?_
    repeat refine after fun _ => ?_
    exact done (((unwritten s).setSrf _).sealSession.setR0 _)
  | pageBuild => exact runsRegisterWork_silent (after fun _ => after fun _ => storesBB _)
  | pageUnpack k =>
    refine runsRegisterWork_silent ?_
    iterate 7 refine after fun _ => ?_
    exact andThen (storesYB _) fun _ ht => done (ht.setR0 _)
  | sesSet f v => exact runsRegisterWork_silent (after fun _ => after fun _ => after fun _ => done ((unwritten s).setSrf _))
  | sesSets f => exact runsRegisterWork_silent (after fun _ => after fun _ => after fun _ => done ((unwritten s).setSrf _))
  | sesGet f => exact runsRegisterWork_silent (after fun _ => after fun _ => storesR0 _)
  | sesGets f => exact runsRegisterWork_silent (after fun _ => after fun _ => storesYB _)
  | ldBb n bits => exact runsRegisterWork_silent (after fun _ => storesBB _)
  | stBb => exact runsRegisterWork_answer s _
  | ldYb n bytes => exact runsRegisterWork_silent (after fun _ => storesYB _)
  | stYb => exact runsRegisterWork_answer s _
  | ldPx w h data => exact runsRegisterWork_silent (after fun _ => after fun _ => done ((unwritten s).setPX _))
  | stPx => exact runsRegisterWork_stPx s

/-- Everything a command can do: a halted CORE refuses it (R302); else it completes with its registers written, or it faults with none
(R15, R300). -/
theorem exec_next {i : Instr} {s t : State} (h : exec i s = .next t) :
    (s.halt = true ∧ t = s.refuseHalted) ∨
    (s.halt = false ∧ ∃ u d, OnlyRegistersWritten s u ∧ t = u.completed d) ∨
    (s.halt = false ∧ ∃ c, t = s.takeFault c) := by
  obtain ⟨w, hw, hwrites⟩ := exec_runsRegisterWork i s
  rw [hw, runCommand_next] at h
  rcases h with refused | ⟨hs, u, d, hu, ht⟩ | ⟨hs, c, -, ht⟩
  · exact .inl refused
  · exact .inr (.inl ⟨hs, u, d, hwrites u d hu, ht⟩)
  · exact .inr (.inr ⟨hs, c, ht⟩)

/-! ## What an event and a step do -/

/-- Everything a command packet can do: be refused by a halted CORE, run the command it encodes, or raise `IllegalCommand`
(R296, R302, R96). -/
theorem serveCommand_next {packet : Bits} {s t : State} (h : serveCommand packet s = .next t) :
    (s.halt = true ∧ t = s.refuseHalted) ∨
    (s.halt = false ∧ ∃ i, decode s.params packet = .ok i ∧ exec i s = .next t) ∨
    (s.halt = false ∧ (∃ b, decode s.params packet = .error (.illegalCommand b)) ∧ t = s.takeFault .illegalCommand) := by
  unfold serveCommand at h
  rcases hs : s.halt with _ | _
  · rcases hd : decode s.params packet with (b | why) | i <;> simp_all
  · simp_all

/-- Everything a step can do: idle while the host has issued nothing, or serve the first event, a command packet or reset (R20). -/
theorem step_next {s t : State} (h : step s = .next t) :
    (s.inbox = [] ∧ t = s) ∨
    ∃ event rest, s.inbox = event :: rest ∧
      ((∃ packet, event = .command packet ∧ serveCommand packet (s.setInbox rest) = .next t) ∨
        (event = .reset ∧ t = (s.setInbox rest).applyReset)) := by
  unfold step at h
  rcases hin : s.inbox with _ | ⟨packet | _, rest⟩ <;> simp_all [serve]

/-! ## The parameters (R8) -/

theorem exec_params {i : Instr} {s t : State} (h : exec i s = .next t) : t.params = s.params := by
  rcases exec_next h with ⟨-, rfl⟩ | ⟨-, u, d, hu, rfl⟩ | ⟨-, c, rfl⟩
  · exact s.refuseHalted_params
  · exact hu.params
  · exact s.takeFault_params c

theorem serveCommand_params {packet : Bits} {s t : State} (h : serveCommand packet s = .next t) : t.params = s.params := by
  rcases serveCommand_next h with ⟨-, rfl⟩ | ⟨-, i, -, hi⟩ | ⟨-, -, rfl⟩
  · exact s.refuseHalted_params
  · exact exec_params hi
  · exact s.takeFault_params _

theorem step_params {s t : State} (h : step s = .next t) : t.params = s.params := by
  rcases step_next h with ⟨-, rfl⟩ | ⟨event, rest, -, ⟨packet, -, hserve⟩ | ⟨-, rfl⟩⟩
  · rfl
  · exact (serveCommand_params hserve).trans (s.setInbox_params rest)
  · rfl

/-- Settles O55, from what a command and a step can do. -/
theorem parametersAreFixed : Obligations.ParametersAreFixed :=
  ⟨fun _ _ => step_params, fun _ _ _ => exec_params⟩

end Sys2Proof.Machine
end

section
/-! PROOFS. The statements of spec file 10_state.md. Three layers carry them: rules for how the work of a command can end (`WorkEnds`), what
each command leaves when it completes (`Completes`), from which the frames of R21, R35 and R36 and the invariant of R37 follow, and rules for
two works that go alike (`WorksAlike`), from which the inertness of `FPS` follows. -/

namespace Sys2Proof.Machine

/-! ## How work ends -/

/-- How work can end: whatever it completes with meets `post`, and a cause that it meets is a fault's, never code 0 (R293, R300). -/
structure WorkEnds {α : Type} (w : Work α) (post : α → Prop) : Prop where
  completes : ∀ a, w = .ok a → post a
  faults : w ≠ .error .noFault

namespace WorkEnds

variable {α β : Type} {s : State}

/-- Work in sequence: what the first part ends with is known in the second. -/
theorem bind {x : Work α} {f : α → Work β} {mid : α → Prop} {post : β → Prop} (hx : WorkEnds x mid)
    (hf : ∀ a, mid a → WorkEnds (f a) post) : WorkEnds (x >>= f) post where
  completes b hb :=
    have ⟨a, ha, hab⟩ := (work_bind_ok x f b).mp hb
    (hf a (hx.completes a ha)).completes b hab
  faults hc := by
    rcases (work_bind_error x f _).mp hc with hc | ⟨a, ha, hc⟩
    · exact hx.faults hc
    · exact (hf a (hx.completes a ha)).faults hc

theorem done {a : α} {post : α → Prop} (h : post a) : WorkEnds (pure a) post :=
  ⟨fun _ hb => (work_pure_ok a _).mp hb ▸ h, work_pure_error a _⟩

/-- Work that raises named causes only: all that is kept of it is the value it completed with. -/
theorem itself {x : Work α} (h : x ≠ .error .noFault) : WorkEnds x (fun a => x = .ok a) := ⟨fun _ => id, h⟩

theorem requires {c : Prop} [Decidable c] {e : Cause} (he : e ≠ .noFault := by decide) : WorkEnds (require c e) (fun _ => c) :=
  ⟨fun u => (require_ok c e u).mp, by simp [he]⟩

theorem unsealed : WorkEnds (requireUnsealed s) (fun _ => s.sealed = false) :=
  ⟨fun u => (requireUnsealed_ok s u).mp, by simp⟩

theorem reads {o : Option α} : WorkEnds (readField o) (fun v => o = some v) :=
  ⟨fun v => (readField_ok o v).mp, by simp⟩

theorem readsPX : WorkEnds (readPX s) (fun f => s.px = some f) :=
  ⟨fun f => (readPX_ok s f).mp, by simp⟩

theorem selects {o : Option α} : WorkEnds (selector o) (fun v => o = some v) :=
  ⟨fun v => (selector_ok o v).mp, by simp⟩

theorem fitsWord {cfg : Params} {v : Nat} : WorkEnds (toWord cfg v) (fun r => v < 2 ^ cfg.xlen ∧ r = v) :=
  ⟨fun r => (toWord_ok cfg v r).mp, by simp⟩

theorem storesBB {b : Bits} {post : State → Prop} (h : fitsBuffer s.params b.length = true → post (s.setBB b)) :
    WorkEnds (storeBB s b) post :=
  ⟨fun t ht => by obtain ⟨hb, rfl⟩ := (storeBB_ok s t b).mp ht; exact h hb, by simp⟩

theorem storesYB {y : Bytes} {post : State → Prop} (h : fitsBuffer s.params y.length = true → post (s.setYB y)) :
    WorkEnds (storeYB s y) post :=
  ⟨fun t ht => by obtain ⟨hy, rfl⟩ := (storeYB_ok s t y).mp ht; exact h hy, by simp⟩

theorem storesR0 {v : Nat} {post : State → Prop} (h : v < 2 ^ s.params.xlen → post (s.setR0 v)) : WorkEnds (storeR0 s v) post :=
  ⟨fun t ht => by obtain ⟨hv, rfl⟩ := (storeR0_ok s t v).mp ht; exact h hv, by simp⟩

/-- The mode check of R175 raises named causes only (R111). -/
theorem modeOperand_ne_noFault (mode : Nat) : modeOperand mode ≠ .error .noFault := by
  unfold modeOperand
  rcases hm : recognizeMode mode with c | m
  · rintro ⟨⟩; simp at hm
  · cases m <;> simp [VideoMode.density]

theorem density_ne_noFault (m : VideoMode) : m.density ≠ .error .noFault := by
  cases m <;> simp [VideoMode.density]

/-- The common checks of the raster commands end with the session's `W` and `H` (R176). -/
theorem setsUpRaster {mode edge : Nat} :
    WorkEnds (rasterSetup mode edge s) (fun g => s.srf.w = some g.width ∧ s.srf.h = some g.height) :=
  (itself (by simp)).bind fun _ _ => (itself (modeOperand_ne_noFault mode)).bind fun _ _ =>
    reads.bind fun _ hw => reads.bind fun _ hh => (itself (by simp)).bind fun _ _ => done ⟨hw, hh⟩

theorem bytesPerFrame_ne_noFault (d : Density) (edge width height : Nat) : bytesPerFrame d edge width height ≠ .error .noFault := by
  simp [bytesPerFrame]

theorem maxBlockSize_ne_noFault (required width height : Nat) : maxBlockSize required width height ≠ .error .noFault := by
  unfold maxBlockSize
  rcases maxBlockFrom required width height (width.gcd height) with _ | e <;> simp

theorem keptBytes_ne_noFault (bpf tf un i : Nat) : keptBytes bpf tf un i ≠ .error .noFault := by
  unfold keptBytes; split_ifs <;> simp

theorem headerParse_ne_noFault (b : Bits) : headerParse b ≠ .error .noFault := by simp [headerParse]

/-- The write of `SES.SET` raises named causes only (R231). -/
theorem setScalar_ne_noFault (r : Srf) (cfg : Params) (field : HostField) (v : Nat) : r.setScalar cfg field v ≠ .error .noFault := by
  cases field <;> simp [Srf.setScalar]

end WorkEnds

/-! ## What a command leaves when it completes -/

/-- What command `i` of an unhalted CORE in state `s` leaves when it completes, before its response: the one register that the table of R21
gives it, or, for the commands that write several registers or the session, their writes with the checks that have passed. -/
inductive Completes (s : State) : Instr → State → Prop
  | writesBB {i : Instr} {b : Bits} (writer : writesBB i = true) (fits : fitsBuffer s.params b.length = true) : Completes s i (s.setBB b)
  | writesYB {i : Instr} {y : Bytes} (writer : writesYB i = true) (fits : fitsBuffer s.params y.length = true) : Completes s i (s.setYB y)
  | writesR0 {i : Instr} {v : Nat} (writer : writesR0 i = true) (fits : v < 2 ^ s.params.xlen) : Completes s i (s.setR0 v)
  | rasterEnc {mode edge : Nat} {f : Frame} (width : s.srf.w = some f.w) (height : s.srf.h = some f.h) (full : f.wf = true) :
      Completes s (.rasterEnc mode edge) (s.setPX f)
  | ldPx {w h : Nat} {data : Bytes} {f : Frame} (width : f.w < 2 ^ s.params.dimBits) (height : f.h < 2 ^ s.params.dimBits)
      (full : f.wf = true) : Completes s (.ldPx w h data) (s.setPX f)
  | pageUnpack {i r : Nat} {y : Bytes} (fitsY : fitsBuffer s.params y.length = true) (fitsR : r < 2 ^ s.params.xlen) :
      Completes s (.pageUnpack i) ((s.setYB y).setR0 r)
  | chunkBpf {m : VideoMode} {d : Density} {e w h b : Nat} (mode : s.srf.mode = some m) (psize : s.srf.psize = some e)
      (width : s.srf.w = some w) (height : s.srf.h = some h) (density : m.density = .ok d)
      (bytes : bytesPerFrame d e w h = .ok b) (fits : b < 2 ^ s.params.xlen) :
      Completes s .chunkBpf ((s.setSrf { s.srf with bpf := some b }).setR0 b)
  | chunkDerive {fs b : Nat} (unsealed : s.sealed = false) (fsize : s.srf.fsize = some fs) (bpf : s.srf.bpf = some b)
      (fitsT : totalFrames fs b < 2 ^ s.params.xlen) (fitsU : unusedBytes fs b < 2 ^ s.params.xlen) :
      Completes s .chunkDerive
        ((s.setSrf { s.srf with tframes := some (totalFrames fs b), unused := some (unusedBytes fs b) }).seal.setR0 (totalFrames fs b))
  | hdrParse {x : Header} (unsealed : s.sealed = false) (parsed : headerParse s.bb = .ok x) :
      Completes s .hdrParse (s.setSrf (s.srf.ofHeader x)).seal
  | sesSet {f v : Nat} {field : HostField} {r : Srf} (unsealed : s.sealed = false)
      (written : s.srf.setScalar s.params field v = .ok r) : Completes s (.sesSet f v) (s.setSrf r)
  | sesSets {f : Nat} {field : StringField} (unsealed : s.sealed = false) (short : s.yb.length ≤ s.params.strMax) :
      Completes s (.sesSets f) (s.setSrf (s.srf.setString field s.yb))
  | stBb : Completes s .stBb s
  | stYb : Completes s .stYb s
  | stPx : Completes s .stPx s

/-- A result is the end of some work begun in `s` which, when it completes, leaves what `i` leaves. -/
def RunsWorkOf (i : Instr) (s : State) (r : Result) : Prop :=
  ∃ w, r = runCommand s w ∧ WorkEnds w (fun result => Completes s i result.1)

theorem runsWorkOf_silent {i : Instr} {s : State} {w : Work State} (h : WorkEnds w (Completes s i)) :
    RunsWorkOf i s (runCommand s (silent w)) :=
  ⟨_, rfl, fun ⟨u, d⟩ hu => h.completes u ((silent_ok w u d).mp hu).1, fun hc => h.faults ((silent_error w _).mp hc)⟩

theorem runsWorkOf_answer {i : Instr} {s : State} {d : ResponseData} (h : Completes s i s) :
    RunsWorkOf i s (runCommand s (.ok (s, d))) :=
  ⟨_, rfl, .done h⟩

open WorkEnds in
/-- Each command of R95, along the checks and reads of its rule to its writes. -/
theorem exec_runsWorkOf (i : Instr) (s : State) : RunsWorkOf i s (exec i s) := by
  cases i with
  | dec2bin value width =>
    exact runsWorkOf_silent ((requires).bind fun _ _ => (requires).bind fun _ _ => (requires).bind fun _ _ => storesBB (.writesBB rfl))
  | bin2dec => exact runsWorkOf_silent ((requires).bind fun _ _ => (requires).bind fun _ _ => storesR0 (.writesR0 rfl))
  | byte2bits v => exact runsWorkOf_silent ((requires).bind fun _ _ => storesBB (.writesBB rfl))
  | bits2byte => exact runsWorkOf_silent ((requires).bind fun _ _ => storesR0 (.writesR0 rfl))
  | pages2bytes => exact runsWorkOf_silent ((requires).bind fun _ _ => storesYB (.writesYB rfl))
  | bin2str => exact runsWorkOf_silent ((requires).bind fun _ _ => storesYB (.writesYB rfl))
  | hdrGen =>
    refine runsWorkOf_silent ?_
    iterate 6 refine reads.bind fun _ _ => ?_
    iterate 5 refine (requires).bind fun _ _ => ?_
    exact storesBB (.writesBB rfl)
  | hdrParse =>
    exact runsWorkOf_silent (unsealed.bind fun _ hopen => (requires).bind fun _ _ =>
      (itself (headerParse_ne_noFault s.bb)).bind fun _ hx => done (.hdrParse hopen hx))
  | rasterCap mode edge => exact runsWorkOf_silent (setsUpRaster.bind fun _ _ => storesR0 (.writesR0 rfl))
  | rasterEnc mode edge =>
    exact runsWorkOf_silent (setsUpRaster.bind fun g ⟨hw, hh⟩ => (requires).bind fun _ _ =>
      done (.rasterEnc hw hh (g.encode_wf s.bb)))
  | rasterDec mode edge =>
    exact runsWorkOf_silent (setsUpRaster.bind fun _ _ => readsPX.bind fun _ _ => (requires).bind fun _ _ => storesBB (.writesBB rfl))
  | chunkBpf =>
    exact runsWorkOf_silent (reads.bind fun m hm => reads.bind fun e he => reads.bind fun w hw => reads.bind fun h hh =>
      (itself (density_ne_noFault m)).bind fun d hd => (itself (bytesPerFrame_ne_noFault d e w h)).bind fun _ hb =>
      fitsWord.bind fun _ ⟨hfits, hr⟩ => done (hr ▸ .chunkBpf hm he hw hh hd hb hfits))
  | chunkMaxblk required =>
    exact runsWorkOf_silent (reads.bind fun w _ => reads.bind fun h _ => (itself (maxBlockSize_ne_noFault required w h)).bind fun _ _ =>
      storesR0 (.writesR0 rfl))
  | chunkDerive =>
    refine runsWorkOf_silent (unsealed.bind fun _ hopen => ?_)
    iterate 6 refine reads.bind fun _ _ => ?_
    exact reads.bind fun _ hfs => reads.bind fun _ hb => fitsWord.bind fun _ ⟨hT, ht⟩ => fitsWord.bind fun _ ⟨hU, hu⟩ =>
      done (ht ▸ hu ▸ .chunkDerive hopen hfs hb hT hU)
  | pageBuild => exact runsWorkOf_silent (reads.bind fun _ _ => (requires).bind fun _ _ => storesBB (.writesBB rfl))
  | pageUnpack k =>
    exact runsWorkOf_silent (reads.bind fun b _ => reads.bind fun tf _ => reads.bind fun un _ => (requires).bind fun _ _ =>
      (requires).bind fun _ _ => (itself (keptBytes_ne_noFault b tf un k)).bind fun _ _ => fitsWord.bind fun _ ⟨hfits, hr⟩ =>
      (storesYB fun hY => ⟨_, hY, rfl⟩ : WorkEnds _ fun t => ∃ y, fitsBuffer s.params y.length = true ∧ t = s.setYB y).bind
        fun _ ⟨_, hY, ht⟩ => done (ht ▸ hr ▸ .pageUnpack hY hfits))
  | sesSet f v =>
    exact runsWorkOf_silent (selects.bind fun field _ => unsealed.bind fun _ hopen =>
      (itself (setScalar_ne_noFault s.srf s.params field v)).bind fun _ hr => done (.sesSet hopen hr))
  | sesSets f =>
    exact runsWorkOf_silent (selects.bind fun _ _ => unsealed.bind fun _ hopen => (requires).bind fun _ hshort =>
      done (.sesSets hopen hshort))
  | sesGet f => exact runsWorkOf_silent (selects.bind fun _ _ => reads.bind fun _ _ => storesR0 (.writesR0 rfl))
  | sesGets f => exact runsWorkOf_silent (selects.bind fun _ _ => reads.bind fun _ _ => storesYB (.writesYB rfl))
  | ldBb n bits => exact runsWorkOf_silent ((requires).bind fun _ _ => storesBB (.writesBB rfl))
  | stBb => exact runsWorkOf_answer .stBb
  | ldYb n bytes => exact runsWorkOf_silent ((requires).bind fun _ _ => storesYB (.writesYB rfl))
  | stYb => exact runsWorkOf_answer .stYb
  | ldPx w h data =>
    exact runsWorkOf_silent ((requires).bind fun _ ⟨hw, hh⟩ => (requires).bind fun _ hlen =>
      done (.ldPx hw hh (loaded_wf w h data hlen)))
  | stPx => exact ⟨_, rfl, readsPX.bind fun _ _ => done .stPx⟩

/-- Everything a command can do: a halted CORE refuses it (R302); else it completes with its writes, or it faults with a cause of R293 and
writes none (R15, R300). -/
theorem exec_ends {i : Instr} {s t : State} (h : exec i s = .next t) :
    (s.halt = true ∧ t = s.refuseHalted) ∨
    (s.halt = false ∧ ∃ u d, Completes s i u ∧ t = u.completed d) ∨
    (s.halt = false ∧ ∃ c, c ≠ .noFault ∧ t = s.takeFault c) := by
  obtain ⟨w, hw, hends⟩ := exec_runsWorkOf i s
  rw [hw, runCommand_next] at h
  rcases h with refused | ⟨hs, u, d, hu, ht⟩ | ⟨hs, c, hc, ht⟩
  · exact .inl refused
  · exact .inr (.inl ⟨hs, u, d, hends.completes (u, d) hu, ht⟩)
  · exact .inr (.inr ⟨hs, c, fun h0 => hends.faults (h0 ▸ hc), ht⟩)

/-! ## Who writes what (R21, R35, R36) -/

theorem Completes.onlyRegistersWritten {i : Instr} {s u : State} (h : Completes s i u) : OnlyRegistersWritten s u := by
  have unwritten := OnlyRegistersWritten.unwritten s
  cases h with
  | writesBB | writesYB | writesR0 | rasterEnc | ldPx | pageUnpack | chunkBpf | chunkDerive | hdrParse | sesSet | sesSets =>
    exact { unwritten with }
  | stBb | stYb | stPx => exact unwritten

/-- `t` has the registers that `s` has, but for those whose writers `i` is among (R21, R35, R36). -/
structure WritesItsOwn (i : Instr) (s t : State) : Prop where
  bb : writesBB i = false → t.bb = s.bb
  yb : writesYB i = false → t.yb = s.yb
  px : writesPX i = false → t.px = s.px
  r0 : writesR0 i = false → t.r0 = s.r0
  srf : writesSession i = false → t.srf = s.srf
  sealed : sealsSession i = false → t.sealed = s.sealed

theorem WritesItsOwn.of_unwritten (i : Instr) (s : State) : WritesItsOwn i s s :=
  ⟨fun _ => rfl, fun _ => rfl, fun _ => rfl, fun _ => rfl, fun _ => rfl, fun _ => rfl⟩

theorem Completes.writesItsOwn {i : Instr} {s u : State} (h : Completes s i u) : WritesItsOwn i s u := by
  have unwritten := WritesItsOwn.of_unwritten i s
  cases h with
  | writesBB writer => exact { unwritten with bb := by simp [writer] }
  | writesYB writer => exact { unwritten with yb := by simp [writer] }
  | writesR0 writer => exact { unwritten with r0 := by simp [writer] }
  | rasterEnc | ldPx => exact { unwritten with px := nofun }
  | pageUnpack => exact { unwritten with yb := nofun, r0 := nofun }
  | chunkBpf => exact { unwritten with srf := nofun, r0 := nofun }
  | chunkDerive => exact { unwritten with srf := nofun, sealed := nofun, r0 := nofun }
  | hdrParse => exact { unwritten with srf := nofun, sealed := nofun }
  | sesSet | sesSets => exact { unwritten with srf := nofun }
  | stBb | stYb | stPx => exact unwritten

/-- Settles O16: only a completed command writes registers, and then its own. -/
theorem registersHaveTheirWriters : Obligations.RegistersHaveTheirWriters := by
  intro i s t h
  suffices WritesItsOwn i s t ∧ t.inbox = s.inbox by
    obtain ⟨own, inbox⟩ := this
    exact ⟨own.bb, own.yb, own.px, own.r0, own.srf, own.sealed, inbox⟩
  have unwritten := WritesItsOwn.of_unwritten i s
  rcases exec_ends h with ⟨-, rfl⟩ | ⟨-, u, d, hu, rfl⟩ | ⟨-, c, -, rfl⟩
  · exact ⟨{ unwritten with }, rfl⟩
  · exact ⟨{ hu.writesItsOwn with }, hu.onlyRegistersWritten.inbox⟩
  · exact ⟨{ unwritten with }, rfl⟩

/-! ## The sealed session (R36) -/

/-- `bytes_per_frame` of a session has one value: `CHUNK.BPF` finds in a set `BPF` the value it writes (R36, R37). -/
theorem Srf.BpfSound.unique {r : Srf} (sound : r.BpfSound) {m : VideoMode} {d : Density} {e w h b b' : Nat} (hm : r.mode = some m)
    (he : r.psize = some e) (hw : r.w = some w) (hh : r.h = some h) (hd : m.density = .ok d)
    (hb : bytesPerFrame d e w h = .ok b) (hset : r.bpf = some b') : b = b' := by
  obtain ⟨-, m', d', e', w', h', hm', hd', he', hw', hh', hb'⟩ := sound b' hset
  obtain rfl : m = m' := by simpa [hm] using hm'
  obtain rfl : e = e' := by simpa [he] using he'
  obtain rfl : w = w' := by simpa [hw] using hw'
  obtain rfl : h = h' := by simpa [hh] using hh'
  obtain rfl : d = d' := by simpa [hd] using hd'
  simpa [hb] using hb'

/-- A command that completes on a sealed session leaves it as it was, or is `CHUNK.BPF` and has written `BPF` alone (R36). -/
theorem Completes.of_sealed {i : Instr} {s u : State} (h : Completes s i u) (hs : s.sealed = true) :
    u.sealed = true ∧ (u.srf = s.srf ∨
      i = .chunkBpf ∧ ∃ b, u.srf = { s.srf with bpf := some b } ∧ (s.srf.BpfSound → ∀ b', s.srf.bpf = some b' → b = b')) := by
  cases h with
  | writesBB | writesYB | writesR0 | rasterEnc | ldPx | pageUnpack | stBb | stYb | stPx => exact ⟨hs, .inl rfl⟩
  | chunkBpf mode psize width height density bytes =>
    exact ⟨hs, .inr ⟨rfl, _, rfl, fun sound _ => sound.unique mode psize width height density bytes⟩⟩
  | chunkDerive unsealed | hdrParse unsealed | sesSet unsealed | sesSets unsealed => simp [hs] at unsealed

/-- Settles O13: every other writer of the session needs it unsealed, and `CHUNK.BPF` writes a value that the session determines. -/
theorem sealedSessionIsImmutable : Obligations.SealedSessionIsImmutable := by
  intro i s t hs h
  rcases exec_ends h with ⟨-, rfl⟩ | ⟨-, u, d, hu, rfl⟩ | ⟨-, c, -, rfl⟩
  · exact ⟨hs, rfl, fun _ => rfl, fun _ _ => id⟩
  · obtain ⟨hsealed, hsrf | ⟨hi, b, hsrf, hsame⟩⟩ := hu.of_sealed hs
    · exact ⟨hsealed, by simp [hsrf], fun _ => hsrf, fun _ b' hb' => by simp [hsrf, hb']⟩
    · exact ⟨hsealed, by simp [hsrf], fun hne => absurd hi hne, fun inv b' hb' => by simp [hsrf, hsame inv.bpfSound b' hb']⟩
  · exact ⟨hs, rfl, fun _ => rfl, fun _ _ => id⟩

/-- Settles O14: with a selector of its class the seal is each writer's next check (R231, R232, R208, R155). -/
theorem sealedSessionRefusesWriters : Obligations.SealedSessionRefusesWriters := by
  intro s hunhalted hsealed
  have refused : requireUnsealed s = .error .sessionSealed := (requireUnsealed_error s _).mpr ⟨hsealed, rfl⟩
  refine ⟨fun f v hf => ?_, fun f hf => ?_, ?_, ?_⟩
  · have ⟨field, hfield⟩ : ∃ field, HostField.ofSelector f = some field := by
      fin_cases hf <;> exact ⟨_, rfl⟩
    exact runCommand_error s _ _ hunhalted (by simp [refused, hfield])
  · have ⟨field, hfield⟩ : ∃ field, StringField.ofSelector f = some field := by
      fin_cases hf <;> exact ⟨_, rfl⟩
    exact runCommand_error s _ _ hunhalted (by simp [refused, hfield])
  · exact runCommand_error s _ _ hunhalted (by rw [refused]; rfl)
  · exact runCommand_error s _ _ hunhalted (by rw [refused]; rfl)

/-! ## A packet's operands fit their fields (R92) -/

theorem pagesToBytes_length (b : Bits) : (pagesToBytes b).length = b.length / 8 := by
  induction b using pagesToBytes.induct with
  | case1 b0 b1 b2 b3 b4 b5 b6 b7 rest ih => simp [pagesToBytes, ih]; omega
  | case2 b ragged =>
    match b, ragged with
    | [], _ | [_], _ | [_, _], _ | [_, _, _], _ | [_, _, _, _], _ | [_, _, _, _, _], _ | [_, _, _, _, _, _], _
    | [_, _, _, _, _, _, _], _ => simp [pagesToBytes]
    | b0 :: b1 :: b2 :: b3 :: b4 :: b5 :: b6 :: b7 :: rest, ragged => exact absurd rfl (ragged b0 b1 b2 b3 b4 b5 b6 b7 rest)

/-- An operand field holds a number of `XLEN` bits. -/
theorem takeWord_fits {cfg : Params} {p tail : Bits} {a : Nat} (h : takeWord cfg p = some (a, tail)) : operandFits cfg a = true := by
  unfold takeWord at h
  split at h
  next hlen =>
    obtain ⟨rfl, -⟩ : bitsVal (p.take cfg.xlen) = a ∧ p.drop cfg.xlen = tail := by simpa using h
    simpa [operandFits, hlen] using bitsVal_lt (p.take cfg.xlen)
  next => cases h

/-- A decoder's last check. -/
theorem ite_error_eq_ok {c : Prop} [Decidable c] {i j : Instr} {e : DecodeError} :
    (if c then .ok i else .error e) = (.ok j : Except DecodeError Instr) ↔ c ∧ i = j := by
  split <;> simp_all

theorem decodeC0_ok {i j : Instr} {rest : Bits} (h : decodeC0 i rest = .ok j) : i = j :=
  (ite_error_eq_ok.mp h).2

theorem decodeC1_ok {cfg : Params} {mk : Nat → Instr} {rest : Bits} {i : Instr} (h : decodeC1 cfg mk rest = .ok i) :
    ∃ a, operandFits cfg a = true ∧ mk a = i := by
  unfold decodeC1 at h
  rcases hw : takeWord cfg rest with _ | ⟨a, tail⟩ <;> rw [hw] at h
  · cases h
  · exact ⟨a, takeWord_fits hw, decodeC0_ok h⟩

theorem decodeC2_ok {cfg : Params} {mk : Nat → Nat → Instr} {rest : Bits} {i : Instr} (h : decodeC2 cfg mk rest = .ok i) :
    ∃ a b, operandFits cfg a = true ∧ operandFits cfg b = true ∧ mk a b = i := by
  unfold decodeC2 at h
  rcases hw : takeWord cfg rest with _ | ⟨a, tail⟩ <;> rw [hw] at h
  · cases h
  · obtain ⟨b, hb, rfl⟩ := decodeC1_ok h
    exact ⟨a, b, takeWord_fits hw, hb, rfl⟩

theorem decodeCDBits_wellFormed {cfg : Params} {rest : Bits} {i : Instr} (h : decodeCDBits cfg rest = .ok i) :
    i.wellFormed cfg = true := by
  unfold decodeCDBits at h
  rcases hw : takeWord cfg rest with _ | ⟨n, data⟩ <;> rw [hw] at h
  · cases h
  · obtain ⟨hn, rfl⟩ := ite_error_eq_ok.mp h
    simp [Instr.wellFormed, takeWord_fits hw, dataCountOk, hn]

theorem decodeCDBytes_wellFormed {cfg : Params} {rest : Bits} {i : Instr} (h : decodeCDBytes cfg rest = .ok i) :
    i.wellFormed cfg = true := by
  unfold decodeCDBytes at h
  rcases hw : takeWord cfg rest with _ | ⟨n, data⟩ <;> rw [hw] at h
  · cases h
  · obtain ⟨hn, rfl⟩ := ite_error_eq_ok.mp h
    simp [Instr.wellFormed, takeWord_fits hw, dataCountOk, pagesToBytes_length, hn]

theorem decodeCP_wellFormed {cfg : Params} {rest : Bits} {i : Instr} (h : decodeCP cfg rest = .ok i) :
    i.wellFormed cfg = true := by
  unfold decodeCP at h
  rcases hw : takeWord cfg rest with _ | ⟨w, tail⟩ <;> rw [hw] at h
  · cases h
  · rcases hh : takeWord cfg tail with _ | ⟨height, data⟩ <;> simp only [hh] at h
    · cases h
    · obtain ⟨-, rfl⟩ := ite_error_eq_ok.mp h
      simp [Instr.wellFormed, takeWord_fits hw, takeWord_fits hh]

/-- What a packet decodes to is a well-formed command: its operands fit their fields, its data are the units it counts (R91, R92). -/
theorem decode_wellFormed {cfg : Params} {p : Bits} {i : Instr} (h : decode cfg p = .ok i) : i.wellFormed cfg = true := by
  unfold decode at h
  split at h
  case isFalse => cases h
  case isTrue =>
    unfold decodeBody at h
    split at h
    case h_21 => exact decodeCDBits_wellFormed h
    case h_23 => exact decodeCDBytes_wellFormed h
    case h_25 => exact decodeCP_wellFormed h
    case h_27 => cases h
    case h_1 | h_9 | h_10 | h_11 | h_17 =>
      obtain ⟨a, b, ha, hb, rfl⟩ := decodeC2_ok h
      simp [Instr.wellFormed, ha, hb]
    case h_3 | h_13 | h_16 | h_18 | h_19 | h_20 =>
      obtain ⟨a, ha, rfl⟩ := decodeC1_ok h
      exact ha
    all_goals
      obtain rfl := decodeC0_ok h
      rfl

/-! ## The invariant of the reachable states (R37) -/

/-- What `StateInv` says of the registers that a command's work may write (R37 with the register sizes). -/
structure RegistersSound (s : State) : Prop where
  sized : s.Sized
  bpfSound : s.srf.BpfSound
  framesWithUnused : s.srf.tframes.isSome = s.srf.unused.isSome
  framesSealed : s.srf.tframes.isSome = true → s.sealed = true
  sealOrigin : s.sealed = true → s.srf.Derived ∨ s.srf.Parsed

theorem StateInv.registersSound {s : State} (h : StateInv s) : RegistersSound s := { h with }

/-- A `DIM_BITS`-wide field is written with a value of its width (R33). -/
theorem dimWrite_ok {cfg : Params} {write : Nat → Srf} {v : Nat} {r : Srf} (h : write <$> dimValue cfg v = .ok r) :
    v < 2 ^ cfg.dimBits ∧ write v = r := by
  simpa using h

theorem Srf.bpfSound_of_unset {r : Srf} (h : r.bpf = none) : r.BpfSound := fun b hb => by simp [h] at hb

namespace RegistersSound

section
variable {s : State} (h : RegistersSound s)
include h

theorem setBB {b : Bits} (hb : fitsBuffer s.params b.length = true) : RegistersSound (s.setBB b) :=
  { h with sized := { h.sized with bbFits := hb } }

theorem setYB {y : Bytes} (hy : fitsBuffer s.params y.length = true) : RegistersSound (s.setYB y) :=
  { h with sized := { h.sized with ybFits := hy } }

theorem setR0 {v : Nat} (hv : v < 2 ^ s.params.xlen) : RegistersSound (s.setR0 v) :=
  { h with sized := { h.sized with r0Fits := by rintro _ ⟨⟩; exact hv } }

theorem setPX {f : Frame} (hw : f.w < 2 ^ s.params.dimBits) (hh : f.h < 2 ^ s.params.dimBits) (full : f.wf = true) :
    RegistersSound (s.setPX f) :=
  { h with sized := { h.sized with frameFits := by rintro _ ⟨⟩; exact ⟨hw, hh, f.wf_iff.mp full⟩ } }

/-- The registers do not include `HALT`, `FAULT` or the response (R20). -/
theorem completed (d : ResponseData) : RegistersSound (s.completed d) := { h with sized := { h.sized with } }
theorem takeFault (c : Cause) : RegistersSound (s.takeFault c) := { h with sized := { h.sized with } }
theorem refuseHalted : RegistersSound s.refuseHalted := { h with sized := { h.sized with } }

/-! ### The commands that write the session -/

/-- An unsealed session has no `TFRAMES` and no `UNUSED`, and a write that leaves them alone seals nothing (R37). -/
theorem setOpenSession {r : Srf} (unsealed : s.sealed = false) (sized : (s.setSrf r).Sized) (bpfSound : r.BpfSound)
    (tframes : r.tframes = s.srf.tframes) (unused : r.unused = s.srf.unused) : RegistersSound (s.setSrf r) where
  sized := sized
  bpfSound := bpfSound
  framesWithUnused := by simpa [tframes, unused] using h.framesWithUnused
  framesSealed := by simpa [tframes] using h.framesSealed
  sealOrigin hs := by simp [unsealed] at hs

/-- `SES.SET` of a value that fits its operand field: each field's check is its width (R33, R231), and the write of a field that `BPF`
depends on clears it (R35). -/
theorem sesSet {field : HostField} {v : Nat} {r : Srf} (unsealed : s.sealed = false) (hv : v < 2 ^ s.params.xlen)
    (written : s.srf.setScalar s.params field v = .ok r) : RegistersSound (s.setSrf r) := by
  cases field with
  | mode =>
    obtain ⟨m, -, rfl⟩ := (work_map_ok _ (recognizeMode v) r).mp written
    exact h.setOpenSession unsealed { h.sized with bpfFits := nofun } (Srf.bpfSound_of_unset rfl) rfl rfl
  | psize =>
    obtain ⟨hlt, rfl⟩ := dimWrite_ok written
    exact h.setOpenSession unsealed { h.sized with psizeFits := by rintro _ ⟨⟩; exact hlt, bpfFits := nofun }
      (Srf.bpfSound_of_unset rfl) rfl rfl
  | w =>
    obtain ⟨hlt, rfl⟩ := dimWrite_ok written
    exact h.setOpenSession unsealed { h.sized with wFits := by rintro _ ⟨⟩; exact hlt, bpfFits := nofun }
      (Srf.bpfSound_of_unset rfl) rfl rfl
  | h =>
    obtain ⟨hlt, rfl⟩ := dimWrite_ok written
    exact h.setOpenSession unsealed { h.sized with hFits := by rintro _ ⟨⟩; exact hlt, bpfFits := nofun }
      (Srf.bpfSound_of_unset rfl) rfl rfl
  | fps =>
    obtain ⟨hlt, rfl⟩ := dimWrite_ok written
    exact h.setOpenSession unsealed { h.sized with fpsFits := by rintro _ ⟨⟩; exact hlt } h.bpfSound rfl rfl
  | fsize =>
    obtain rfl := (work_pure_ok _ r).mp written
    exact h.setOpenSession unsealed { h.sized with fsizeFits := by rintro _ ⟨⟩; exact hv } h.bpfSound rfl rfl

/-- `SES.SETS` writes a string that came out of `YB` and is within `STR_MAX` (R32, R232). -/
theorem sesSets {field : StringField} (unsealed : s.sealed = false) (short : s.yb.length ≤ s.params.strMax) :
    RegistersSound (s.setSrf (s.srf.setString field s.yb)) := by
  have fits : s.yb.length ≤ s.params.strMax ∧ fitsBuffer s.params s.yb.length = true := ⟨short, h.sized.ybFits⟩
  cases field with
  | checksum =>
    exact h.setOpenSession unsealed { h.sized with checksumFits := by rintro _ ⟨⟩; exact fits } h.bpfSound rfl rfl
  | fname => exact h.setOpenSession unsealed { h.sized with fnameFits := by rintro _ ⟨⟩; exact fits } h.bpfSound rfl rfl

end

end RegistersSound

/-- A quotient that is exact and not of zero is at least 1. -/
theorem div_pos_of_mod_eq_zero {a b : Nat} (ha : 1 ≤ a) (hb : 1 ≤ b) (h : a % b = 0) : 1 ≤ a / b :=
  Nat.div_pos (Nat.le_of_dvd ha (Nat.dvd_of_mod_eq_zero h)) hb

/-- Both divisions of R201 are exact, of a product that is not 0. -/
theorem bytesPerFrame_pos {d : Density} {e w h b : Nat} (hb : bytesPerFrame d e w h = .ok b) : 1 ≤ b := by
  obtain ⟨⟨he, hw, hh⟩, hsquare, hbyte, rfl⟩ : (e ≥ 1 ∧ w ≥ 1 ∧ h ≥ 1) ∧ w * h * d.bpb % (e * e) = 0 ∧
      w * h * d.bpb / (e * e) % 8 = 0 ∧ w * h * d.bpb / (e * e) / 8 = b := by
    simpa [bytesPerFrame] using hb
  have hbpb : 1 ≤ d.bpb := by cases d <;> decide
  exact div_pos_of_mod_eq_zero
    (div_pos_of_mod_eq_zero (Nat.mul_pos (Nat.mul_pos hw hh) hbpb) (Nat.mul_pos he he) hsquare) (by decide) hbyte

/-- R207: the frames cover the file, and less than a frame is unused. -/
theorem unusedBytes_spec {fs b : Nat} (hb : 1 ≤ b) :
    unusedBytes fs b + fs = b * totalFrames fs b ∧ unusedBytes fs b < b := by
  have hdiv := Nat.div_add_mod (fs + b - 1) b
  have hmod := Nat.mod_lt (fs + b - 1) hb
  unfold unusedBytes totalFrames
  omega

namespace RegistersSound

section
variable {s : State} (h : RegistersSound s)
include h

/-- `CHUNK.BPF` writes what R37 asks of a set `BPF`; on a sealed session a set `BPF` keeps its value, so a derived session stays derived
(R36). -/
theorem chunkBpf {m : VideoMode} {d : Density} {e w h' b : Nat} (mode : s.srf.mode = some m) (psize : s.srf.psize = some e)
    (width : s.srf.w = some w) (height : s.srf.h = some h') (density : m.density = .ok d)
    (bytes : bytesPerFrame d e w h' = .ok b) (fits : b < 2 ^ s.params.xlen) :
    RegistersSound (s.setSrf { s.srf with bpf := some b }) where
  sized := { h.sized with bpfFits := by rintro _ ⟨⟩; exact fits }
  bpfSound := by rintro _ ⟨⟩; exact ⟨bytesPerFrame_pos bytes, m, d, e, w, h', mode, density, psize, width, height, bytes⟩
  framesWithUnused := h.framesWithUnused
  framesSealed := h.framesSealed
  sealOrigin hs := by
    rcases h.sealOrigin hs with ⟨fs, b', tf, un, fsize, bpf, derived⟩ | parsed
    · obtain rfl : b = b' := h.bpfSound.unique mode psize width height density bytes bpf
      exact .inl ⟨fs, b, tf, un, fsize, rfl, derived⟩
    · exact .inr parsed

/-- `CHUNK.DERIVE` seals what R207 computes from the set `FSIZE` and `BPF`. -/
theorem chunkDerive {fs b : Nat} (fsize : s.srf.fsize = some fs) (bpf : s.srf.bpf = some b)
    (fitsT : totalFrames fs b < 2 ^ s.params.xlen) (fitsU : unusedBytes fs b < 2 ^ s.params.xlen) :
    RegistersSound (s.setSrf { s.srf with tframes := some (totalFrames fs b), unused := some (unusedBytes fs b) }).seal where
  sized := { h.sized with
    tframesFits := by rintro _ ⟨⟩; exact fitsT
    unusedFits := by rintro _ ⟨⟩; exact fitsU }
  bpfSound := h.bpfSound
  framesWithUnused := rfl
  framesSealed _ := rfl
  sealOrigin _ := .inl ⟨fs, b, _, _, fsize, bpf, rfl, rfl, rfl, unusedBytes_spec (h.bpfSound b bpf).1⟩

end

end RegistersSound

/-! ### What a header holds (R156) -/

/-- A number of a header is below two to the width of its field (R100). -/
theorem bitsVal_slice_lt (b : Bits) (i j : Nat) : bitsVal (slice b i j) < 2 ^ (j - i) :=
  lt_of_lt_of_le (bitsVal_lt _) (Nat.pow_le_pow_right (by decide) (List.length_take_le _ _))

/-- A string of a header is no longer than its field (R138). -/
theorem binToStr_slice_length_le (b : Bits) (i j : Nat) : (binToStr (slice b i j)).length ≤ (j - i) / 8 :=
  calc (binToStr (slice b i j)).length
    _ ≤ (pagesToBytes (slice b i j)).length := List.length_filter_le _ _
    _ = (slice b i j).length / 8 := pagesToBytes_length _
    _ ≤ (j - i) / 8 := Nat.div_le_div_right (List.length_take_le _ _)

theorem zero_notMem_binToStr (b : Bits) : (0 : Byte) ∉ binToStr b := by simp [binToStr]

/-- The bounds that a header's fields set to what `HDR.PARSE` reads from them (R156). -/
structure Header.Bounded (x : Header) : Prop where
  checksum : x.checksum.length ≤ 64 ∧ (0 : Byte) ∉ x.checksum
  fname : x.fname.length ≤ 32 ∧ (0 : Byte) ∉ x.fname
  psize : x.psize < 2 ^ 8
  unused : x.unused < 2 ^ 32
  tframes : x.tframes < 2 ^ 32

theorem headerParse_bounded {b : Bits} {x : Header} (h : headerParse b = .ok x) : x.Bounded := by
  obtain ⟨mode, -, rfl⟩ := (work_map_ok _ (recognizeMode _) x).mp h
  exact ⟨⟨binToStr_slice_length_le b _ _, zero_notMem_binToStr _⟩, ⟨binToStr_slice_length_le b _ _, zero_notMem_binToStr _⟩,
    bitsVal_slice_lt b _ _, bitsVal_slice_lt b _ _, bitsVal_slice_lt b _ _⟩

theorem Srf.ofHeader_parsed (r : Srf) {x : Header} (hx : x.Bounded) : (r.ofHeader x).Parsed :=
  ⟨x.mode, x.checksum, x.fname, x.psize, x.unused, x.tframes, rfl, rfl, rfl, rfl, rfl, rfl,
    hx.checksum.1, hx.checksum.2, hx.fname.1, hx.fname.2, hx.psize, hx.unused, hx.tframes⟩

/-- `HDR.PARSE` seals what the header holds: its fields fit their registers (R8), and `BPF` is unset (R155). -/
theorem RegistersSound.hdrParse {s : State} (h : RegistersSound s) {x : Header} (hx : x.Bounded) :
    RegistersSound (s.setSrf (s.srf.ofHeader x)).seal where
  sized :=
    have valid := h.sized.paramsValid
    have strMax := valid.strMaxLeast
    have string {y : Bytes} (hy : y.length ≤ 64) : y.length ≤ s.params.strMax ∧ fitsBuffer s.params y.length = true :=
      ⟨by omega, fitsBuffer_of_le_header valid (by omega)⟩
    { h.sized with
      psizeFits := by
        rintro _ ⟨⟩
        exact lt_of_lt_of_le hx.psize (Nat.pow_le_pow_right (by decide) (Nat.le_trans (by decide) valid.dimBitsLeast))
      checksumFits := by rintro _ ⟨⟩; exact string hx.checksum.1
      fnameFits := by rintro _ ⟨⟩; exact string (hx.fname.1.trans (by decide))
      bpfFits := nofun
      unusedFits := by rintro _ ⟨⟩; exact valid.lt_xlen_of_lt hx.unused
      tframesFits := by rintro _ ⟨⟩; exact valid.lt_xlen_of_lt hx.tframes }
  bpfSound := Srf.bpfSound_of_unset rfl
  framesWithUnused := rfl
  framesSealed _ := rfl
  sealOrigin _ := .inr (s.srf.ofHeader_parsed hx)

/-! ### Every command and every step -/

/-- A completed command whose operands fit their fields keeps the registers sound (R37). -/
theorem Completes.registersSound {i : Instr} {s u : State} (h : Completes s i u) (wf : i.wellFormed s.params = true)
    (sound : RegistersSound s) : RegistersSound u := by
  cases h with
  | writesBB _ fits => exact sound.setBB fits
  | writesYB _ fits => exact sound.setYB fits
  | writesR0 _ fits => exact sound.setR0 fits
  | rasterEnc width height full => exact sound.setPX (sound.sized.wFits _ width) (sound.sized.hFits _ height) full
  | ldPx width height full => exact sound.setPX width height full
  | pageUnpack fitsY fitsR => exact (sound.setYB fitsY).setR0 fitsR
  | chunkBpf mode psize width height density bytes fits =>
    exact (sound.chunkBpf mode psize width height density bytes fits).setR0 fits
  | chunkDerive _ fsize bpf fitsT fitsU => exact (sound.chunkDerive fsize bpf fitsT fitsU).setR0 fitsT
  | hdrParse _ parsed => exact sound.hdrParse (headerParse_bounded parsed)
  | sesSet unsealed written =>
    obtain ⟨-, hv⟩ := Bool.and_eq_true_iff.mp wf
    exact sound.sesSet unsealed (of_decide_eq_true hv) written
  | sesSets unsealed short => exact sound.sesSets unsealed short
  | stBb | stYb | stPx => exact sound

namespace StateInv

variable {s : State}

/-- A completed command leaves an unhalted CORE without a fault, and its response says so (R94). -/
theorem of_completed {u : State} {d : ResponseData} (sound : RegistersSound u) (halt : u.halt = false) (fault : u.fault = .noFault) :
    StateInv (u.completed d) :=
  { sound.completed d with
    haltWithFault := by simp [halt, fault]
    responseTrue := by rintro _ ⟨⟩; simp [halt, fault] }

theorem takeFault (h : StateInv s) {c : Cause} (hc : c ≠ .noFault) : StateInv (s.takeFault c) :=
  { h.registersSound.takeFault c with
    haltWithFault := by simp [hc]
    responseTrue := by rintro _ ⟨⟩; simp }

theorem refuseHalted (h : StateInv s) (halt : s.halt = true) : StateInv s.refuseHalted :=
  { h.registersSound.refuseHalted with
    haltWithFault := h.haltWithFault
    responseTrue := by rintro _ ⟨⟩; simp [halt] }

theorem setInbox (h : StateInv s) (rest : List HostEvent) : StateInv (s.setInbox rest) :=
  { h with sized := { h.sized with } }

theorem of_exec (h : StateInv s) {i : Instr} {t : State} (wf : i.wellFormed s.params = true) (ht : exec i s = .next t) :
    StateInv t := by
  rcases exec_ends ht with ⟨halt, rfl⟩ | ⟨halt, u, d, hu, rfl⟩ | ⟨-, c, hc, rfl⟩
  · exact h.refuseHalted halt
  · have frame := hu.onlyRegistersWritten
    have fault : s.fault = .noFault := by simpa [halt] using h.haltWithFault
    exact of_completed (hu.registersSound wf h.registersSound) (frame.halt.trans halt) (frame.fault.trans fault)
  · exact h.takeFault hc

theorem of_serveCommand (h : StateInv s) {packet : Bits} {t : State} (ht : serveCommand packet s = .next t) : StateInv t := by
  rcases serveCommand_next ht with ⟨halt, rfl⟩ | ⟨-, i, hi, ht⟩ | ⟨-, -, rfl⟩
  · exact h.refuseHalted halt
  · exact h.of_exec (decode_wellFormed hi) ht
  · exact h.takeFault (by decide)

/-- After reset there is nothing to say but the parameters' constraints (R8, R40). -/
theorem resetWith {cfg : Params} (valid : cfg.Valid) : StateInv (State.resetWith cfg) where
  sized :=
    { paramsValid := valid
      psizeFits := nofun, wFits := nofun, hFits := nofun, fpsFits := nofun, checksumFits := nofun, fnameFits := nofun
      fsizeFits := nofun, bpfFits := nofun, unusedFits := nofun, tframesFits := nofun, frameFits := nofun, r0Fits := nofun
      bbFits := fitsBuffer_of_le_header valid (Nat.zero_le _)
      ybFits := fitsBuffer_of_le_header valid (Nat.zero_le _) }
  bpfSound := nofun
  framesWithUnused := rfl
  framesSealed := nofun
  sealOrigin := nofun
  haltWithFault := by simp [State.resetWith]
  responseTrue := nofun

end StateInv

/-- Settles O10: the reset state meets the invariant for all valid parameters, and the defaults are valid (R8). -/
theorem resetMeetsInvariant : Obligations.ResetMeetsInvariant :=
  ⟨fun _ => StateInv.resetWith, .resetWith Params.defaults_valid⟩

/-- Settles O11: an event served is reset, a packet without a command, or a command whose operands fit their fields because it was
decoded. -/
theorem stepKeepsInvariant : Obligations.StepKeepsInvariant := by
  intro s t inv h
  rcases step_next h with ⟨-, rfl⟩ | ⟨event, rest, -, ⟨packet, -, hserve⟩ | ⟨-, rfl⟩⟩
  · exact inv
  · exact (inv.setInbox rest).of_serveCommand hserve
  · exact (StateInv.resetWith inv.sized.paramsValid).setInbox rest

/-! ## Reset and the port -/

/-- Settles O9: each register of R40 by computation, the set bits selector by selector. -/
theorem resetValues : Obligations.ResetValues := by
  intro cfg
  refine ⟨fun f => ?_, rfl, rfl, rfl, rfl, rfl, rfl, rfl⟩
  change Srf.reset.isSet f = false
  unfold Srf.isSet
  split <;> rfl

/-- Settles O5: a halted CORE refuses the packet and the command alike (R302). -/
theorem stepRunsDecodedCommand : Obligations.StepRunsDecodedCommand := by
  intro s p i rest hin hdecode
  have hstep : step s = serveCommand p (s.setInbox rest) := by rw [step, hin]; rfl
  have hdecode' : decode (s.setInbox rest).params p = .ok i := hdecode
  rw [hstep, serveCommand, hdecode']
  rcases hhalt : (s.setInbox rest).halt with _ | _
  · rfl
  · obtain ⟨w, hw⟩ := exec_eq_runCommand i (s.setInbox rest)
    exact (hw.trans (runCommand_halted _ w hhalt)).symm

/-- Settles O6: along the branches of `step` and `serveCommand`. -/
theorem stepIdlesOrRefusesMalformed : Obligations.StepIdlesOrRefusesMalformed := by
  refine ⟨fun s hin => ?_, fun s p why rest hhalt hin hdecode => ?_⟩
  · simp [step, hin]
  · simp [step, hin, serve, serveCommand, hhalt, hdecode]

/-! ## Works that go alike -/

/-- Two works that meet the same cause, or both complete, with ends that `R` relates. -/
inductive WorksAlike {α β : Type} (R : α → β → Prop) : Work α → Work β → Prop
  | fault (c : Cause) : WorksAlike R (.error c) (.error c)
  | done {a : α} {b : β} (h : R a b) : WorksAlike R (.ok a) (.ok b)

namespace WorksAlike

variable {α β γ δ : Type}

theorem bind {R : α → β → Prop} {S : γ → δ → Prop} {x : Work α} {y : Work β} {f : α → Work γ} {g : β → Work δ}
    (h : WorksAlike R x y) (hfg : ∀ a b, R a b → WorksAlike S (f a) (g b)) : WorksAlike S (x >>= f) (y >>= g) := by
  cases h with
  | fault c => exact .fault c
  | done hab => exact hfg _ _ hab

/-- The same check or read in front of works that go alike. -/
theorem after {S : γ → δ → Prop} {x : Work α} {f : α → Work γ} {g : α → Work δ} (h : ∀ a, WorksAlike S (f a) (g a)) :
    WorksAlike S (x >>= f) (x >>= g) := by
  cases x with
  | error c => exact .fault c
  | ok a => exact h a

theorem map {S : γ → δ → Prop} {x : Work α} {f : α → γ} {g : α → δ} (h : ∀ a, S (f a) (g a)) : WorksAlike S (f <$> x) (g <$> x) := by
  cases x with
  | error c => exact .fault c
  | ok a => exact .done (h a)

end WorksAlike

/-! ## `FPS` (R30) -/

/-- `s` with another `FPS`, set or unset. -/
def State.withFps (s : State) (v : Option Nat) : State := { s with srf := { s.srf with fps := v } }

@[simp] theorem State.withFps_params (s : State) (v : Option Nat) : (s.withFps v).params = s.params := rfl
@[simp] theorem State.withFps_halt (s : State) (v : Option Nat) : (s.withFps v).halt = s.halt := rfl

/-- `u` is `s` but for `FPS`. -/
def FpsApart (s u : State) : Prop := ∃ v, u = s.withFps v

theorem FpsApart.eq {s u : State} (h : FpsApart s u) : u = { s with srf := { s.srf with fps := u.srf.fps } } := by
  obtain ⟨v, rfl⟩ := h
  rfl

/-- Two works begun in states that differ in `FPS` alone, whose ends differ in `FPS` alone. -/
abbrev WorksFpsApart (w w' : Work State) : Prop := WorksAlike FpsApart w w'

namespace WorksFpsApart

variable {s : State} {v : Option Nat}

theorem storesBB (b : Bits) : WorksFpsApart (storeBB s b) (storeBB (s.withFps v) b) := by
  rw [storeBB, storeBB, State.withFps_params]
  split
  next => exact .done ⟨v, rfl⟩
  next => exact .fault _

theorem storesYB (y : Bytes) : WorksFpsApart (storeYB s y) (storeYB (s.withFps v) y) := by
  rw [storeYB, storeYB, State.withFps_params]
  split
  next => exact .done ⟨v, rfl⟩
  next => exact .fault _

theorem storesR0 (n : Nat) : WorksFpsApart (storeR0 s n) (storeR0 (s.withFps v) n) := by
  rw [storeR0, storeR0, State.withFps_params]
  rcases toWord s.params n with c | r
  · exact .fault c
  · exact .done ⟨v, rfl⟩

/-- A session write that does not read `FPS`. -/
theorem setsSrf {r r' : Srf} (h : ∃ v, r' = { r with fps := v }) : FpsApart (s.setSrf r) ((s.withFps v).setSrf r') := by
  obtain ⟨v', rfl⟩ := h
  exact ⟨v', rfl⟩

/-- `SES.SET` checks its value and writes its field, whatever `FPS` holds (R231). -/
theorem setScalar (r : Srf) (cfg : Params) (field : HostField) (n : Nat) :
    WorksAlike (fun a b => ∃ v, b = { a with fps := v }) (r.setScalar cfg field n)
      (Srf.setScalar { r with fps := v } cfg field n) := by
  cases field with
  | mode | psize | w | h | fps => exact .map fun _ => ⟨_, rfl⟩
  | fsize => exact .done ⟨_, rfl⟩

theorem setString (r : Srf) (field : StringField) (y : Bytes) :
    ∃ v', Srf.setString { r with fps := v } field y = { r.setString field y with fps := v' } := by
  cases field <;> exact ⟨v, rfl⟩

end WorksFpsApart

/-- Two results that are the ends of works which answer the same data and leave states that differ in `FPS` alone. -/
def RunsFpsApart (s : State) (v : Option Nat) (r r' : Result) : Prop :=
  ∃ w w', r = runCommand s w ∧ r' = runCommand (s.withFps v) w' ∧ WorksAlike (fun a b => FpsApart a.1 b.1 ∧ a.2 = b.2) w w'

theorem runsFpsApart_silent {s : State} {v : Option Nat} {w w' : Work State} (h : WorksFpsApart w w') :
    RunsFpsApart s v (runCommand s (silent w)) (runCommand (s.withFps v) (silent w')) := by
  refine ⟨_, _, rfl, rfl, ?_⟩
  cases h with
  | fault c => exact .fault c
  | done huv => exact .done ⟨huv, rfl⟩

theorem runsFpsApart_answer (s : State) (v : Option Nat) (d : ResponseData) :
    RunsFpsApart s v (runCommand s (.ok (s, d))) (runCommand (s.withFps v) (.ok (s.withFps v, d))) :=
  ⟨_, _, rfl, rfl, .done ⟨⟨v, rfl⟩, rfl⟩⟩

open WorksAlike WorksFpsApart in
/-- Each command but `SES.GET`: its checks and reads do not look at `FPS`, and its writes write the same. -/
theorem exec_runsFpsApart (i : Instr) (s : State) (v : Option Nat) (hi : ∀ f, i ≠ .sesGet f) :
    RunsFpsApart s v (exec i s) (exec i (s.withFps v)) := by
  cases i with
  | dec2bin value width => exact runsFpsApart_silent (after fun _ => after fun _ => after fun _ => storesBB _)
  | bin2dec => exact runsFpsApart_silent (after fun _ => after fun _ => storesR0 _)
  | byte2bits n => exact runsFpsApart_silent (after fun _ => storesBB _)
  | bits2byte => exact runsFpsApart_silent (after fun _ => storesR0 _)
  | pages2bytes => exact runsFpsApart_silent (after fun _ => storesYB _)
  | bin2str => exact runsFpsApart_silent (after fun _ => storesYB _)
  | hdrGen =>
    refine runsFpsApart_silent ?_
    iterate 11 refine after fun _ => ?_
    exact storesBB _
  | hdrParse =>
    exact runsFpsApart_silent (after fun _ => after fun _ => after fun _ => .done ⟨v, rfl⟩)
  | rasterCap mode edge => exact runsFpsApart_silent (after fun _ => storesR0 _)
  | rasterEnc mode edge => exact runsFpsApart_silent (after fun _ => after fun _ => .done ⟨v, rfl⟩)
  | rasterDec mode edge => exact runsFpsApart_silent (after fun _ => after fun _ => after fun _ => storesBB _)
  | chunkBpf =>
    refine runsFpsApart_silent ?_
    iterate 7 refine after fun _ => ?_
    exact .done ⟨v, rfl⟩
  | chunkMaxblk required => exact runsFpsApart_silent (after fun _ => after fun _ => after fun _ => storesR0 _)
  | chunkDerive =>
    refine runsFpsApart_silent ?_
    iterate 11 refine after fun _ => ?_
    exact .done ⟨v, rfl⟩
  | pageBuild => exact runsFpsApart_silent (after fun _ => after fun _ => storesBB _)
  | pageUnpack k =>
    refine runsFpsApart_silent ?_
    iterate 7 refine after fun _ => ?_
    exact (storesYB _).bind fun _ _ ⟨v', h⟩ => .done ⟨v', h ▸ rfl⟩
  | sesSet f n =>
    exact runsFpsApart_silent (after fun _ => after fun _ => (setScalar _ _ _ _).bind fun _ _ h => .done (setsSrf h))
  | sesSets f => exact runsFpsApart_silent (after fun _ => after fun _ => after fun _ => .done (setsSrf (setString _ _ _)))
  | sesGet f => exact absurd rfl (hi f)
  | sesGets f =>
    exact runsFpsApart_silent (after fun field => by cases field <;> exact after fun _ => storesYB _)
  | ldBb n bits => exact runsFpsApart_silent (after fun _ => storesBB _)
  | stBb => exact runsFpsApart_answer s v _
  | ldYb n bytes => exact runsFpsApart_silent (after fun _ => storesYB _)
  | stYb => exact runsFpsApart_answer s v _
  | ldPx w h data => exact runsFpsApart_silent (after fun _ => after fun _ => .done ⟨v, rfl⟩)
  | stPx => exact ⟨_, _, rfl, rfl, after fun _ => .done ⟨⟨v, rfl⟩, rfl⟩⟩

/-- Whatever end the two works have in common, the states after it differ in `FPS` alone. -/
theorem RunsFpsApart.next {s t t' : State} {v : Option Nat} {r r' : Result} (h : RunsFpsApart s v r r') (ht : r = .next t)
    (ht' : r' = .next t') : FpsApart t t' := by
  obtain ⟨w, w', rfl, rfl, hw⟩ := h
  rcases hs : s.halt with _ | _
  · cases hw with
    | fault c =>
      obtain rfl : s.takeFault c = t := by simpa [runCommand, hs] using ht
      obtain rfl : (s.withFps v).takeFault c = t' := by simpa [runCommand, hs] using ht'
      exact ⟨v, rfl⟩
    | @done a b hab =>
      obtain ⟨u, d⟩ := a
      obtain ⟨u', d'⟩ := b
      obtain ⟨⟨v', rfl⟩, rfl⟩ := hab
      obtain rfl : u.completed d = t := by simpa [runCommand, hs] using ht
      obtain rfl : (u.withFps v').completed d = t' := by simpa [runCommand, hs] using ht'
      exact ⟨v', rfl⟩
  · obtain rfl : s.refuseHalted = t := by simpa [runCommand, hs] using ht
    obtain rfl : (s.withFps v).refuseHalted = t' := by simpa [runCommand, hs] using ht'
    exact ⟨v, rfl⟩

/-- Settles O54: the two runs are ends of works that go alike. -/
theorem fpsIsInert : Obligations.FpsIsInert :=
  fun i s _ _ v hi ht ht' => ((exec_runsFpsApart i s v hi).next ht ht').eq

end Sys2Proof.Machine
end

section
/-! PROOFS. The statement of spec file 20_memory.md. The frame commands read the parameters, the session, their operands and their input buffer;
on two COREs that agree on those, their works go alike (`WorksAlike`), and so their answers do. -/

namespace Sys2Proof.Machine

/-! ## Commands that answer alike -/

/-- Two unhalted COREs of one build with the same session and the same `FAULT`. -/
structure SameSession (s u : State) : Prop where
  left_unhalted : s.halt = false
  right_unhalted : u.halt = false
  params : s.params = u.params
  srf : s.srf = u.srf
  fault : s.fault = u.fault

/-- Work begun in `s` left `a`, and work begun in `u` left `b`: registers only are written, and `same` relates what they hold. -/
structure WrittenAlike (same : State → State → Prop) (s u a b : State) : Prop where
  left : OnlyRegistersWritten s a
  right : OnlyRegistersWritten u b
  related : same a b

/-- Two commands' next states, on the way from unhalted COREs: both completed, related by `same`, or both faulted, with the same cause. -/
def AnswerAlike (same : State → State → Prop) (r r' : Result) : Prop :=
  ∀ s' u', r = .next s' → r' = .next u' →
    s'.halt = u'.halt ∧ s'.fault = u'.fault ∧ (s'.halt = false → same s' u')

/-- Works that go alike end in answers that are alike, where `same` does not look at the response (R94, R300). -/
theorem answerAlike_of_worksAlike {same : State → State → Prop} {s u : State} {w w' : Work State} (h : SameSession s u)
    (responseUnread : ∀ a b d, same a b → same (a.completed d) (b.completed d))
    (alike : WorksAlike (WrittenAlike same s u) w w') :
    AnswerAlike same (runCommand s (silent w)) (runCommand u (silent w')) := by
  intro s' u' hs' hu'
  cases alike with
  | fault c =>
    obtain ⟨⟩ := (runCommand_error s _ c h.left_unhalted rfl).symm.trans hs'
    obtain ⟨⟩ := (runCommand_error u _ c h.right_unhalted rfl).symm.trans hu'
    exact ⟨rfl, rfl, nofun⟩
  | @done a b hab =>
    obtain ⟨⟩ := (runCommand_ok s a _ .absent h.left_unhalted rfl).symm.trans hs'
    obtain ⟨⟩ := (runCommand_ok u b _ .absent h.right_unhalted rfl).symm.trans hu'
    have halt : a.halt = b.halt := by rw [hab.left.halt, hab.right.halt, h.left_unhalted, h.right_unhalted]
    have fault : a.fault = b.fault := by rw [hab.left.fault, hab.right.fault, h.fault]
    exact ⟨halt, fault, fun _ => responseUnread a b .absent hab.related⟩

/-! ## The frame commands (R77) -/

namespace SameSession

variable {s u : State} (h : SameSession s u)
include h

/-- The same bits fit `BB` on both, or overflow it on both (R298). -/
theorem storesBB (b : Bits) : WorksAlike (WrittenAlike (fun a c => a.bb = c.bb) s u) (storeBB s b) (storeBB u b) := by
  rw [storeBB, storeBB, h.params]
  split
  next => exact .done ⟨(OnlyRegistersWritten.unwritten s).setBB b, (OnlyRegistersWritten.unwritten u).setBB b, rfl⟩
  next => exact .fault _

/-- The same bytes fit `YB` on both, or overflow it on both (R298). -/
theorem storesYB (y : Bytes) : WorksAlike (WrittenAlike (fun a c => a.yb = c.yb) s u) (storeYB s y) (storeYB u y) := by
  rw [storeYB, storeYB, h.params]
  split
  next => exact .done ⟨(OnlyRegistersWritten.unwritten s).setYB y, (OnlyRegistersWritten.unwritten u).setYB y, rfl⟩
  next => exact .fault _

/-- The common checks of the raster commands read the parameters and the session (R175, R176). -/
theorem rasterSetup_eq (mode edge : Nat) : rasterSetup mode edge s = rasterSetup mode edge u := by
  rw [rasterSetup, rasterSetup, h.params, h.srf]

theorem rasterEnc (mode edge : Nat) (bb : s.bb = u.bb) :
    AnswerAlike (fun a b => a.px = b.px) (execRasterEnc mode edge s) (execRasterEnc mode edge u) := by
  refine answerAlike_of_worksAlike h (fun _ _ _ => id) ?_
  rw [h.rasterSetup_eq, bb]
  exact .after fun _ => .after fun _ =>
    .done ⟨(OnlyRegistersWritten.unwritten s).setPX _, (OnlyRegistersWritten.unwritten u).setPX _, rfl⟩

theorem rasterDec (mode edge : Nat) (px : s.px = u.px) :
    AnswerAlike (fun a b => a.bb = b.bb) (execRasterDec mode edge s) (execRasterDec mode edge u) := by
  refine answerAlike_of_worksAlike h (fun _ _ _ => id) ?_
  have read : readPX s = readPX u := by rw [readPX, readPX, px]
  rw [h.rasterSetup_eq, read]
  exact .after fun _ => .after fun _ => .after fun _ => h.storesBB _

theorem pageBuild (yb : s.yb = u.yb) : AnswerAlike (fun a b => a.bb = b.bb) (execPageBuild s) (execPageBuild u) := by
  refine answerAlike_of_worksAlike h (fun _ _ _ => id) ?_
  rw [h.srf, yb]
  exact .after fun _ => .after fun _ => h.storesBB _

theorem pageUnpack (i : Nat) (bb : s.bb = u.bb) :
    AnswerAlike (fun a b => a.yb = b.yb ∧ a.r0 = b.r0) (execPageUnpack i s) (execPageUnpack i u) := by
  refine answerAlike_of_worksAlike h (fun _ _ _ => id) ?_
  rw [h.params, h.srf, bb]
  iterate 7 refine .after fun _ => ?_
  exact (h.storesYB _).bind fun _ _ ⟨left, right, yb⟩ => .done ⟨left.setR0 _, right.setR0 _, yb, rfl⟩

end SameSession

/-- Settles O53: the four commands on two COREs that agree on what these read. -/
theorem frameResultsArePure : Obligations.FrameResultsArePure := by
  intro s u s' u' left_unhalted right_unhalted params srf fault
  have h : SameSession s u := ⟨left_unhalted, right_unhalted, params, srf, fault⟩
  exact ⟨fun mode edge bb => h.rasterEnc mode edge bb s' u', fun mode edge px => h.rasterDec mode edge px s' u',
    fun yb => h.pageBuild yb s' u', fun i bb => h.pageUnpack i bb s' u'⟩

end Sys2Proof.Machine
end

section
/-! PROOFS. The statements of spec file 30_encoding.md. Numbers and bytes go to bits and back; an operand field is read exactly where it was
written (`takeWord_eq_some`); every format is read by its fields (`fieldThen`); so a packet decodes to a command exactly when that command is
well formed and has this packet (`decode_eq_ok_iff`), from which both directions of R91, R92 and R95 follow. -/

namespace Sys2Proof.Machine

/-! ## Numbers and bits (R12, R130) -/

/-- `width` bits carry a value modulo `2^width` (R12, R130). -/
theorem bitsVal_decToBin (value width : Nat) : bitsVal (decToBin value width) = value % 2 ^ width := by
  induction width with
  | zero => simp [decToBin, Nat.mod_one]
  | succ width ih =>
    have bit : (bitAt value width).toNat = value / 2 ^ width % 2 := by
      rcases Nat.mod_two_eq_zero_or_one (value / 2 ^ width) with h | h <;> simp [bitAt, h]
    calc bitsVal (decToBin value (width + 1))
      _ = value / 2 ^ width % 2 * 2 ^ width + value % 2 ^ width := by
        rw [decToBin, bitsVal_cons, decToBin_length, ih, bit]
      _ = value % 2 ^ (width + 1) := by rw [pow_succ, Nat.mod_mul, Nat.mul_comm, Nat.add_comm]

/-- Bit sequences of one length that hold the same number are the same. -/
theorem bitsVal_injective {a b : Bits} (hlen : a.length = b.length) (hval : bitsVal a = bitsVal b) : a = b := by
  induction a generalizing b with
  | nil => exact (List.length_eq_zero_iff.mp hlen.symm).symm
  | cons x a ih =>
    cases b with
    | nil => cases hlen
    | cons y b =>
      have len : a.length = b.length := by simpa using hlen
      have ha := bitsVal_lt a
      have hb := bitsVal_lt b
      rw [bitsVal_cons, bitsVal_cons, len] at hval
      rw [len] at ha
      cases x <;> cases y <;> simp only [Bool.toNat_false, Bool.toNat_true] at hval
      case false.true | true.false => omega
      all_goals rw [ih len (by omega)]

/-- Writing the number of a bit sequence at its own width gives the sequence back. -/
theorem decToBin_bitsVal (b : Bits) : decToBin (bitsVal b) b.length = b :=
  bitsVal_injective (decToBin_length _ _) (by rw [bitsVal_decToBin, Nat.mod_eq_of_lt (bitsVal_lt b)])

/-! ## Bytes and bits (R134, R137) -/

@[simp] theorem bitsToByte_byteToBits (v : Byte) : bitsToByte (byteToBits v) = v := by
  rw [bitsToByte, byteToBits, bitsVal_decToBin, Nat.mod_eq_of_lt v.isLt, BitVec.ofNat_toNat, BitVec.setWidth_eq]

theorem byteToBits_bitsToByte {b : Bits} (h : b.length = 8) : byteToBits (bitsToByte b) = b := by
  have hval : bitsVal b < 2 ^ 8 := h ▸ bitsVal_lt b
  calc byteToBits (bitsToByte b)
    _ = decToBin (bitsVal b) b.length := by rw [byteToBits, bitsToByte, BitVec.toNat_ofNat, Nat.mod_eq_of_lt hval, h]
    _ = b := decToBin_bitsVal b

@[simp] theorem pagesToBytes_bytesToBits (y : Bytes) : pagesToBytes (bytesToBits y) = y := by
  induction y with
  | nil => rfl
  | cons v y ih => rw [bytesToBits_cons, pagesToBytes_chunk _ _ (byteToBits_length v), bitsToByte_byteToBits, ih]

/-- No bit of a whole number of bytes is lost (R137). -/
theorem bytesToBits_pagesToBytes {b : Bits} (h : b.length % 8 = 0) : bytesToBits (pagesToBytes b) = b := by
  induction b using pagesToBytes.induct with
  | case1 b0 b1 b2 b3 b4 b5 b6 b7 rest ih =>
    have hrest : rest.length % 8 = 0 := by simpa [Nat.add_assoc] using h
    rw [pagesToBytes, bytesToBits_cons, byteToBits_bitsToByte rfl, ih hrest]
    rfl
  | case2 b ragged =>
    match b, ragged, h with
    | [], _, _ => rfl
    | b0 :: b1 :: b2 :: b3 :: b4 :: b5 :: b6 :: b7 :: rest, ragged, _ => exact absurd rfl (ragged b0 b1 b2 b3 b4 b5 b6 b7 rest)

/-! ## One field of a packet (R92) -/

/-- An operand field is read exactly where it was written. -/
theorem takeWord_eq_some {cfg : Params} {p tail : Bits} {a : Nat} :
    takeWord cfg p = some (a, tail) ↔ operandFits cfg a = true ∧ p = wordBits cfg a ++ tail := by
  constructor
  · intro h
    refine ⟨takeWord_fits h, ?_⟩
    unfold takeWord at h
    split at h
    next hlen =>
      obtain ⟨rfl, rfl⟩ : bitsVal (p.take cfg.xlen) = a ∧ p.drop cfg.xlen = tail := by simpa using h
      have field : wordBits cfg (bitsVal (p.take cfg.xlen)) = p.take cfg.xlen := by
        simpa [wordBits, hlen] using decToBin_bitsVal (p.take cfg.xlen)
      rw [field, List.take_append_drop]
    next => cases h
  · rintro ⟨fits, rfl⟩
    have len : (wordBits cfg a).length = cfg.xlen := decToBin_length _ _
    have val : bitsVal (wordBits cfg a) = a := by
      rw [wordBits, bitsVal_decToBin, Nat.mod_eq_of_lt (of_decide_eq_true fits)]
    rw [takeWord, if_pos (by simp [len]), List.take_left' len, List.drop_left' len, val]

/-- Reading one operand field, then what `next` reads from the rest: the shape that every format but C0 has. -/
def fieldThen (cfg : Params) (rest : Bits) (next : Nat → Bits → Except DecodeError Instr) : Except DecodeError Instr :=
  match takeWord cfg rest with
  | none => .error (.malformed .operandMissing)
  | some (a, tail) => next a tail

theorem fieldThen_eq_ok {cfg : Params} {rest : Bits} {next : Nat → Bits → Except DecodeError Instr} {i : Instr} :
    fieldThen cfg rest next = .ok i ↔
      ∃ a tail, (operandFits cfg a = true ∧ rest = wordBits cfg a ++ tail) ∧ next a tail = .ok i := by
  simp only [← takeWord_eq_some, fieldThen]
  rcases takeWord cfg rest with _ | ⟨a, tail⟩ <;> simp

theorem fieldThen_ne_illegal {cfg : Params} {rest : Bits} {next : Nat → Bits → Except DecodeError Instr} {c : Byte}
    (h : ∀ a tail, next a tail ≠ .error (.illegalCommand c)) : fieldThen cfg rest next ≠ .error (.illegalCommand c) := by
  unfold fieldThen
  rcases takeWord cfg rest with _ | ⟨a, tail⟩
  · simp
  · exact h a tail

theorem decodeC1_eq_fieldThen (cfg : Params) (mk : Nat → Instr) (rest : Bits) :
    decodeC1 cfg mk rest = fieldThen cfg rest fun a tail => decodeC0 (mk a) tail := rfl

theorem decodeC2_eq_fieldThen (cfg : Params) (mk : Nat → Nat → Instr) (rest : Bits) :
    decodeC2 cfg mk rest = fieldThen cfg rest fun a tail => decodeC1 cfg (mk a) tail := rfl

theorem decodeCDBits_eq_fieldThen (cfg : Params) (rest : Bits) :
    decodeCDBits cfg rest = fieldThen cfg rest fun n data =>
      if data.length = n then .ok (.ldBb n data) else .error (.malformed .dataCount) := rfl

theorem decodeCDBytes_eq_fieldThen (cfg : Params) (rest : Bits) :
    decodeCDBytes cfg rest = fieldThen cfg rest fun n data =>
      if data.length = 8 * n then .ok (.ldYb n (pagesToBytes data)) else .error (.malformed .dataCount) := rfl

theorem decodeCP_eq_fieldThen (cfg : Params) (rest : Bits) :
    decodeCP cfg rest = fieldThen cfg rest fun w tail => fieldThen cfg tail fun h data =>
      if data.length % 8 = 0 then .ok (.ldPx w h (pagesToBytes data)) else .error (.malformed .partialByte) := rfl

/-! ## What each format reads (R92) -/

theorem decodeC0_eq_ok {i j : Instr} {rest : Bits} : decodeC0 i rest = .ok j ↔ rest = [] ∧ i = j :=
  ite_error_eq_ok

theorem decodeC1_eq_ok {cfg : Params} {mk : Nat → Instr} {rest : Bits} {i : Instr} :
    decodeC1 cfg mk rest = .ok i ↔ ∃ a, operandFits cfg a = true ∧ rest = wordBits cfg a ∧ mk a = i := by
  simp [decodeC1_eq_fieldThen, fieldThen_eq_ok, decodeC0_eq_ok, and_assoc]

theorem decodeC2_eq_ok {cfg : Params} {mk : Nat → Nat → Instr} {rest : Bits} {i : Instr} :
    decodeC2 cfg mk rest = .ok i ↔
      ∃ a b, operandFits cfg a = true ∧ operandFits cfg b = true ∧ rest = wordBits cfg a ++ wordBits cfg b ∧ mk a b = i := by
  rw [decodeC2_eq_fieldThen, fieldThen_eq_ok]
  constructor
  · rintro ⟨a, tail, ⟨ha, rfl⟩, h⟩
    obtain ⟨b, hb, rfl, rfl⟩ := decodeC1_eq_ok.mp h
    exact ⟨a, b, ha, hb, rfl, rfl⟩
  · rintro ⟨a, b, ha, hb, rfl, rfl⟩
    exact ⟨a, _, ⟨ha, rfl⟩, decodeC1_eq_ok.mpr ⟨b, hb, rfl, rfl⟩⟩

theorem decodeCDBits_eq_ok {cfg : Params} {rest : Bits} {i : Instr} :
    decodeCDBits cfg rest = .ok i ↔
      ∃ data : Bits, operandFits cfg data.length = true ∧ rest = wordBits cfg data.length ++ data ∧ .ldBb data.length data = i := by
  rw [decodeCDBits_eq_fieldThen, fieldThen_eq_ok]
  constructor
  · rintro ⟨n, data, ⟨hn, rfl⟩, h⟩
    obtain ⟨rfl, rfl⟩ := ite_error_eq_ok.mp h
    exact ⟨data, hn, rfl, rfl⟩
  · rintro ⟨data, hn, rfl, rfl⟩
    exact ⟨_, data, ⟨hn, rfl⟩, if_pos rfl⟩

theorem decodeCDBytes_eq_ok {cfg : Params} {rest : Bits} {i : Instr} :
    decodeCDBytes cfg rest = .ok i ↔
      ∃ y : Bytes, operandFits cfg y.length = true ∧ rest = wordBits cfg y.length ++ bytesToBits y ∧ .ldYb y.length y = i := by
  rw [decodeCDBytes_eq_fieldThen, fieldThen_eq_ok]
  constructor
  · rintro ⟨n, data, ⟨hn, rfl⟩, h⟩
    obtain ⟨hlen, rfl⟩ := ite_error_eq_ok.mp h
    have count : (pagesToBytes data).length = n := by rw [pagesToBytes_length]; omega
    refine ⟨pagesToBytes data, by rwa [count], ?_, by rw [count]⟩
    rw [count, bytesToBits_pagesToBytes (by omega)]
  · rintro ⟨y, hn, rfl, rfl⟩
    exact ⟨_, bytesToBits y, ⟨hn, rfl⟩, by simp⟩

theorem decodeCP_eq_ok {cfg : Params} {rest : Bits} {i : Instr} :
    decodeCP cfg rest = .ok i ↔
      ∃ w h y, operandFits cfg w = true ∧ operandFits cfg h = true ∧
        rest = wordBits cfg w ++ (wordBits cfg h ++ bytesToBits y) ∧ .ldPx w h y = i := by
  simp only [decodeCP_eq_fieldThen, fieldThen_eq_ok]
  constructor
  · rintro ⟨w, _, ⟨hw, rfl⟩, h, data, ⟨hh, rfl⟩, hdata⟩
    obtain ⟨whole, rfl⟩ := ite_error_eq_ok.mp hdata
    exact ⟨w, h, _, hw, hh, by rw [bytesToBits_pagesToBytes whole], rfl⟩
  · rintro ⟨w, h, y, hw, hh, rfl, rfl⟩
    exact ⟨w, _, ⟨hw, rfl⟩, h, _, ⟨hh, rfl⟩, by simp⟩

/-! ## The whole packet (R91, R95) -/

/-- The command word is read back, whatever follows it (R91). -/
theorem decode_byteToBits_append (cfg : Params) (cmd : Byte) (rest : Bits) :
    decode cfg (byteToBits cmd ++ rest) = decodeBody cfg cmd rest := by
  rw [decode, if_pos (by simp), List.take_left' (byteToBits_length cmd), List.drop_left' (byteToBits_length cmd),
    bitsToByte_byteToBits]

/-- A packet that decodes begins with a command word (R91). -/
theorem exists_cmd_of_decode_eq_ok {cfg : Params} {p : Bits} {i : Instr} (h : decode cfg p = .ok i) :
    ∃ cmd rest, p = byteToBits cmd ++ rest ∧ decodeBody cfg cmd rest = .ok i := by
  unfold decode at h
  split at h
  next hlen =>
    have word : byteToBits (bitsToByte (p.take 8)) = p.take 8 := byteToBits_bitsToByte (by simpa using hlen)
    exact ⟨_, _, by rw [word, List.take_append_drop], h⟩
  next => cases h

/-- What follows a command word is that command's fields and nothing else (R92, R95). -/
theorem encode_of_decodeBody {cfg : Params} {cmd : Byte} {rest : Bits} {i : Instr} (h : decodeBody cfg cmd rest = .ok i) :
    encode cfg i = byteToBits cmd ++ rest := by
  unfold decodeBody at h
  split at h
  case h_21 =>
    obtain ⟨data, -, rfl, rfl⟩ := decodeCDBits_eq_ok.mp h
    rfl
  case h_23 =>
    obtain ⟨y, -, rfl, rfl⟩ := decodeCDBytes_eq_ok.mp h
    rfl
  case h_25 =>
    obtain ⟨w, height, y, -, -, rfl, rfl⟩ := decodeCP_eq_ok.mp h
    rfl
  case h_27 => cases h
  case h_1 | h_9 | h_10 | h_11 | h_17 =>
    obtain ⟨a, b, -, -, rfl, rfl⟩ := decodeC2_eq_ok.mp h
    rfl
  case h_3 | h_13 | h_16 | h_18 | h_19 | h_20 =>
    obtain ⟨a, -, rfl, rfl⟩ := decodeC1_eq_ok.mp h
    rfl
  all_goals
    obtain ⟨rfl, rfl⟩ := decodeC0_eq_ok.mp h
    exact (List.append_nil _).symm

/-! ### The packet of a well-formed command, format by format -/

theorem decode_packC0 {cfg : Params} {cmd : Byte} {i : Instr} (hcmd : decodeBody cfg cmd = decodeC0 i) :
    decode cfg (packC0 cmd) = .ok i := by
  rw [packC0, ← List.append_nil (byteToBits cmd), decode_byteToBits_append, hcmd]
  exact decodeC0_eq_ok.mpr ⟨rfl, rfl⟩

theorem decode_packC1 {cfg : Params} {cmd : Byte} {mk : Nat → Instr} {a : Nat} (hcmd : decodeBody cfg cmd = decodeC1 cfg mk)
    (ha : operandFits cfg a = true) : decode cfg (packC1 cfg cmd a) = .ok (mk a) := by
  rw [packC1, decode_byteToBits_append, hcmd]
  exact decodeC1_eq_ok.mpr ⟨a, ha, rfl, rfl⟩

theorem decode_packC2 {cfg : Params} {cmd : Byte} {mk : Nat → Nat → Instr} {a b : Nat}
    (hcmd : decodeBody cfg cmd = decodeC2 cfg mk) (fits : (operandFits cfg a && operandFits cfg b) = true) :
    decode cfg (packC2 cfg cmd a b) = .ok (mk a b) := by
  obtain ⟨ha, hb⟩ := Bool.and_eq_true_iff.mp fits
  rw [packC2, decode_byteToBits_append, hcmd]
  exact decodeC2_eq_ok.mpr ⟨a, b, ha, hb, rfl, rfl⟩

theorem decode_encode {cfg : Params} {i : Instr} (wf : i.wellFormed cfg = true) : decode cfg (encode cfg i) = .ok i := by
  cases i with
  | bin2dec | bits2byte | pages2bytes | bin2str | hdrGen | hdrParse | chunkBpf | chunkDerive | pageBuild | stBb | stYb | stPx =>
    exact decode_packC0 rfl
  | byte2bits a | chunkMaxblk a | pageUnpack a | sesSets a | sesGet a | sesGets a => exact decode_packC1 rfl wf
  | dec2bin a b | rasterCap a b | rasterEnc a b | rasterDec a b | sesSet a b => exact decode_packC2 rfl wf
  | ldBb n data =>
    obtain ⟨fits, rfl⟩ : operandFits cfg n = true ∧ n = data.length := by simpa [Instr.wellFormed, dataCountOk] using wf
    exact (decode_byteToBits_append _ _ _).trans (decodeCDBits_eq_ok.mpr ⟨data, fits, rfl, rfl⟩)
  | ldYb n y =>
    obtain ⟨fits, rfl⟩ : operandFits cfg n = true ∧ n = y.length := by simpa [Instr.wellFormed, dataCountOk] using wf
    exact (decode_byteToBits_append _ _ _).trans (decodeCDBytes_eq_ok.mpr ⟨y, fits, rfl, rfl⟩)
  | ldPx w h y =>
    obtain ⟨hw, hh⟩ := Bool.and_eq_true_iff.mp wf
    exact (decode_byteToBits_append _ _ _).trans (decodeCP_eq_ok.mpr ⟨w, h, y, hw, hh, rfl, rfl⟩)

/-- A bit sequence decodes to a command exactly when the command is well formed and this is its packet (R91, R92, R95). -/
theorem decode_eq_ok_iff {cfg : Params} {p : Bits} {i : Instr} :
    decode cfg p = .ok i ↔ i.wellFormed cfg = true ∧ encode cfg i = p := by
  constructor
  · intro h
    obtain ⟨cmd, rest, rfl, hbody⟩ := exists_cmd_of_decode_eq_ok h
    exact ⟨decode_wellFormed h, encode_of_decodeBody hbody⟩
  · rintro ⟨wf, rfl⟩
    exact decode_encode wf

/-- Settles O1: each format reads the fields that its packet wrote. -/
theorem decodeOfEncode : Obligations.DecodeOfEncode :=
  fun _ _ => decode_encode

/-- Settles O2: each format reads every bit of the packet. -/
theorem encodeOfDecode : Obligations.EncodeOfDecode :=
  fun _ _ _ => decode_eq_ok_iff.mp

/-! ## The illegal command words (R96) -/

theorem decodeC0_ne_illegal (i : Instr) (rest : Bits) (c : Byte) : decodeC0 i rest ≠ .error (.illegalCommand c) := by
  unfold decodeC0
  split <;> simp

theorem decodeC1_ne_illegal (cfg : Params) (mk : Nat → Instr) (rest : Bits) (c : Byte) :
    decodeC1 cfg mk rest ≠ .error (.illegalCommand c) :=
  fieldThen_ne_illegal fun _ _ => decodeC0_ne_illegal _ _ _

theorem decodeC2_ne_illegal (cfg : Params) (mk : Nat → Nat → Instr) (rest : Bits) (c : Byte) :
    decodeC2 cfg mk rest ≠ .error (.illegalCommand c) :=
  fieldThen_ne_illegal fun _ _ => decodeC1_ne_illegal _ _ _ _

theorem decodeCDBits_ne_illegal (cfg : Params) (rest : Bits) (c : Byte) : decodeCDBits cfg rest ≠ .error (.illegalCommand c) :=
  fieldThen_ne_illegal fun _ _ => by split <;> simp

theorem decodeCDBytes_ne_illegal (cfg : Params) (rest : Bits) (c : Byte) :
    decodeCDBytes cfg rest ≠ .error (.illegalCommand c) :=
  fieldThen_ne_illegal fun _ _ => by split <;> simp

theorem decodeCP_ne_illegal (cfg : Params) (rest : Bits) (c : Byte) : decodeCP cfg rest ≠ .error (.illegalCommand c) :=
  fieldThen_ne_illegal fun _ _ => fieldThen_ne_illegal fun _ _ => by split <;> simp

/-- The decoder's default row answers for every word outside the 26 (R96). -/
theorem decodeBody_illegal {cfg : Params} {cmd : Byte} (rest : Bits) (h : cmd ∉ commandWords) :
    decodeBody cfg cmd rest = .error (.illegalCommand cmd) := by
  unfold decodeBody
  split
  case h_27 => rfl
  all_goals exact absurd (by decide) h

/-- The 26 have a row each, and none of the formats answers with an illegal command (R92, R96). -/
theorem decodeBody_ne_illegal {cfg : Params} {cmd : Byte} (rest : Bits) (c : Byte) (h : cmd ∈ commandWords) :
    decodeBody cfg cmd rest ≠ .error (.illegalCommand c) := by
  unfold decodeBody
  split
  case h_21 => exact decodeCDBits_ne_illegal _ _ _
  case h_23 => exact decodeCDBytes_ne_illegal _ _ _
  case h_25 => exact decodeCP_ne_illegal _ _ _
  case h_27 => simp_all [commandWords]
  case h_1 | h_9 | h_10 | h_11 | h_17 => exact decodeC2_ne_illegal _ _ _ _
  case h_3 | h_13 | h_16 | h_18 | h_19 | h_20 => exact decodeC1_ne_illegal _ _ _ _
  all_goals exact decodeC0_ne_illegal _ _ _

/-- Settles O4: a packet's first 8 bits select the decoder's row. -/
theorem illegalCommandWords : Obligations.IllegalCommandWords := by
  refine ⟨rfl, by decide, fun cmd fields s rest hhalt hcmd hin => ?_, fun cfg cmd other fields hcmd => ?_⟩
  · have hdecode : decode s.params (decToBin cmd.toNat 8 ++ fields) = .error (.illegalCommand cmd) :=
      (decode_byteToBits_append _ cmd fields).trans (decodeBody_illegal fields hcmd)
    simp only [step, hin, serve, serveCommand, State.setInbox_halt, State.setInbox_params, hhalt, hdecode]
    rfl
  · exact (decode_byteToBits_append cfg cmd fields).trans_ne (decodeBody_ne_illegal fields other hcmd)

/-! ## Sample packets and mode codes -/

/-- Settles O3: each sample is the packet of its command, and the command is well formed. -/
theorem sampleWordsDecode : Obligations.SampleWordsDecode := by
  refine ⟨?_, ?_, ?_, ?_, ?_, ?_, ?_, ?_⟩
  all_goals exact decode_eq_ok_iff.mpr ⟨by decide, by simp [encode, packC0, packC1, packC2, packCD, packet, wordBits, byteToBits]⟩

/-- Settles O18: mode by mode, and for the codes above 4 by the lookup's default row. -/
theorem videoTypeLookup : Obligations.VideoTypeLookup := by
  refine ⟨fun m => ?_, fun n hn => ?_, rfl, rfl, rfl, rfl, rfl⟩
  · cases m <;> exact ⟨rfl, by decide⟩
  · obtain ⟨k, rfl⟩ := Nat.exists_eq_add_of_le' hn
    rfl

end Sys2Proof.Machine
end

section
/-! PROOFS. The statements of spec file 40_bitcodec.md. BitCodec's functions by bits and bytes: which bit stands where in a number
(`decToBin_getD`), which bits make a byte (`pagesToBytes_getD`), what zero chunks in front leave of a string (`binToStr_zeros_append`). A command
of this file is then its checks and one checked write. -/

namespace Sys2Proof.Machine

/-! ## The packets of C0, C1 and C2, field by field (R92) -/

theorem packC0_eq_packet (cfg : Params) (cmd : Byte) : packC0 cmd = packet cfg cmd.toNat [] [] := by
  simp [packC0, packet, byteToBits]

theorem packC1_eq_packet (cfg : Params) (cmd : Byte) (a : Nat) : packC1 cfg cmd a = packet cfg cmd.toNat [a] [] := by
  simp [packC1, packet, byteToBits, wordBits]

theorem packC2_eq_packet (cfg : Params) (cmd : Byte) (a b : Nat) : packC2 cfg cmd a b = packet cfg cmd.toNat [a, b] [] := by
  simp [packC2, packet, byteToBits, wordBits]

/-! ## Commands that answer no data -/

section
variable {s t : State} {w : Work State}

/-- Work that completes ends an unhalted CORE's command in an `OK` response without data (R94). -/
theorem runCommand_silent_ok (unhalted : s.halt = false) (hw : w = .ok t) :
    runCommand s (silent w) = .next (answersOk t .absent) :=
  runCommand_ok s t _ .absent unhalted ((silent_ok w t _).mpr ⟨hw, rfl⟩)

/-- Work that meets a cause ends an unhalted CORE's command in a fault entry (R300). -/
theorem runCommand_silent_error {c : Cause} (unhalted : s.halt = false) (hw : w = .error c) :
    runCommand s (silent w) = .next (answersFault s c) :=
  runCommand_error s _ c unhalted ((silent_error w c).mpr hw)

end

/-! ## Bits of a number and of a byte (R130, R134) -/

/-- Bit `k` of the sequence is the bit of weight `2^(width-1-k)` (R130). -/
theorem decToBin_getD {value width k : Nat} (hk : k < width) : (decToBin value width).getD k false = bitAt value (width - 1 - k) := by
  induction width generalizing k with
  | zero => cases hk
  | succ width ih =>
    cases k with
    | zero => rfl
    | succ k =>
      have weight : width + 1 - 1 - (k + 1) = width - 1 - k := by omega
      rw [decToBin, List.getD_cons_succ, ih (Nat.lt_of_succ_lt_succ hk), weight]

/-- A number that its bits can hold is what they hold (R12, R130). -/
theorem bitsVal_decToBin_of_lt {value width : Nat} (h : value < 2 ^ width) : bitsVal (decToBin value width) = value := by
  rw [bitsVal_decToBin, Nat.mod_eq_of_lt h]

theorem bitsVal_byteToBits_ofNat {v : Nat} (h : v ≤ 255) : bitsVal (byteToBits (BitVec.ofNat 8 v)) = v := by
  have hv : v < 2 ^ 8 := by omega
  rw [byteToBits, BitVec.toNat_ofNat, Nat.mod_eq_of_lt hv, bitsVal_decToBin_of_lt hv]

theorem bitsToByte_toNat {b : Bits} (h : b.length = 8) : (bitsToByte b).toNat = bitsVal b := by
  rw [bitsToByte, BitVec.toNat_ofNat, Nat.mod_eq_of_lt (h ▸ bitsVal_lt b)]

/-! ## Bytes of a bit sequence (R137, R138) -/

/-- A slice that begins behind `c` is a slice of the rest (R11). -/
theorem slice_append_add (c rest : Bits) (i j : Nat) : slice (c ++ rest) (c.length + i) (c.length + j) = slice rest i j := by
  rw [slice, slice, List.drop_length_add_append, Nat.add_sub_add_left]

/-- Byte `k` is the value of bits `8k .. 8k+7` (R137). -/
theorem pagesToBytes_getD {b : Bits} {k : Nat} (hk : k < (pagesToBytes b).length) :
    ((pagesToBytes b).getD k 0).toNat = bitsVal (slice b (8 * k) (8 * k + 8)) := by
  induction b using pagesToBytes.induct generalizing k with
  | case1 b0 b1 b2 b3 b4 b5 b6 b7 rest ih =>
    cases k with
    | zero => exact bitsToByte_toNat rfl
    | succ k =>
      have chunk := slice_append_add [b0, b1, b2, b3, b4, b5, b6, b7] rest (8 * k) (8 * k + 8)
      have position : 8 * (k + 1) = 8 + 8 * k := by omega
      rw [pagesToBytes, List.getD_cons_succ, ih (Nat.lt_of_succ_lt_succ hk), position, Nat.add_assoc]
      exact congrArg bitsVal chunk.symm
  | case2 b ragged => simp [pagesToBytes] at hk

theorem binToStr_length_le (b : Bits) : (binToStr b).length ≤ b.length :=
  (List.length_filter_le _ _).trans ((pagesToBytes_length b).trans_le (Nat.div_le_self _ _))

/-- Chunks of zero bits are 0x00 bytes. -/
theorem zeros_eq_bytesToBits (k : Nat) : zeros (8 * k) = bytesToBits (List.replicate k 0) := by
  induction k with
  | zero => rfl
  | succ k ih =>
    have chunk : byteToBits 0 = zeros 8 := by decide
    rw [List.replicate_succ, bytesToBits_cons, ← ih, chunk, zeros, zeros, zeros, List.replicate_append_replicate, Nat.mul_succ,
      Nat.add_comm]

/-- The string of zero chunks and then a string's bits is that string without its 0x00 bytes (R140). -/
theorem binToStr_zeros_append (k : Nat) (y : Bytes) : binToStr (zeros (8 * k) ++ bytesToBits y) = y.filter (fun c => c != 0) := by
  have dropped : (List.replicate k (0 : Byte)).filter (fun c => c != 0) = [] := by simp
  rw [binToStr, zeros_eq_bytesToBits, ← bytesToBits_append, pagesToBytes_bytesToBits, List.filter_append, dropped, List.nil_append]

/-- Dropping the 0x00 bytes keeps exactly the strings that have none. -/
theorem filter_ne_zero_eq_self (y : Bytes) : y.filter (fun c => c != 0) = y ↔ (0 : Byte) ∉ y := by
  rw [List.filter_eq_self]
  constructor
  · intro nonzero hzero
    exact absurd (nonzero 0 hzero) (by decide)
  · intro hzero c hc
    exact bne_iff_ne.mpr fun h => hzero (h ▸ hc)

/-- Settles O26: the laws of R140 one by one. -/
theorem bitCodecLaws : Obligations.BitCodecLaws := by
  refine ⟨fun n x _ hx => ⟨decToBin_length x n, bitsVal_decToBin_of_lt hx⟩, bitsToByte_byteToBits, fun _ => byteToBits_bitsToByte,
    fun b _ => decToBin_bitsVal b, pagesToBytes_bytesToBits, fun _ => bytesToBits_pagesToBytes, fun k y => ?_⟩
  rw [binToStr_zeros_append]
  exact ⟨rfl, filter_ne_zero_eq_self y⟩

/-! ## The commands on numbers (R131, R133, R135, R136) -/

/-- Settles O20: the checks of R131 in order, then the bits of R130. -/
theorem dec2binWritesTheNumber : Obligations.Dec2binWritesTheNumber := by
  intro value width s unhalted
  refine ⟨packC2_eq_packet _ _ _ _, fun long => ?_, fun fits positive small => ?_, fun fits outside => ?_⟩
  · exact runCommand_silent_error unhalted (by simp [long])
  · refine ⟨decToBin value width, decToBin_length _ _, bitsVal_decToBin_of_lt small, fun k hk => decToBin_getD hk, ?_⟩
    exact runCommand_silent_ok (t := s.setBB (decToBin value width)) unhalted (by simp [fits, positive, small])
  · refine runCommand_silent_error unhalted ?_
    by_cases positive : 1 ≤ width
    · have large : 2 ^ width ≤ value := outside.resolve_left (by omega)
      simp [fits, positive, large]
    · simp [fits, positive]

/-- Settles O21: both checks of R133 raise `NotBinary`, and the second is the one of the write. -/
theorem bin2decReadsTheNumber : Obligations.Bin2decReadsTheNumber := by
  refine ⟨fun cfg => packC0_eq_packet cfg _, fun s unhalted => ⟨fun nonempty small => ?_, fun outside => ?_⟩⟩
  · exact runCommand_silent_ok (t := s.setR0 (bitsVal s.bb)) unhalted (by simp [nonempty, small])
  · refine runCommand_silent_error unhalted ?_
    by_cases nonempty : 1 ≤ s.bb.length
    · have large : 2 ^ s.params.xlen ≤ bitsVal s.bb := outside.resolve_left (by omega)
      simp [nonempty, large]
    · simp [nonempty]

/-- Settles O22: a number up to 255 is a byte, whose 8 bits fit every `BUF_MAX` of R8. -/
theorem byte2bitsWritesEightBits : Obligations.Byte2bitsWritesEightBits := by
  intro v s unhalted
  refine ⟨packC1_eq_packet _ _ _, fun valid small => ?_, fun large => ?_⟩
  · have fits : fitsBuffer s.params 8 = true := fitsBuffer_of_le_header valid (by decide)
    refine ⟨byteToBits (BitVec.ofNat 8 v), byteToBits_length _, bitsVal_byteToBits_ofNat small, ?_⟩
    exact runCommand_silent_ok (t := s.setBB (byteToBits (BitVec.ofNat 8 v))) unhalted (by simp [small, fits])
  · exact runCommand_silent_error unhalted (by simp [large])

/-- Settles O23: the value of 8 bits fits every `XLEN` of R8. -/
theorem bits2byteReadsEightBits : Obligations.Bits2byteReadsEightBits := by
  refine ⟨fun cfg => packC0_eq_packet cfg _, fun s unhalted => ⟨fun valid eight => ?_, fun other => ?_⟩⟩
  · have byte : bitsVal s.bb < 2 ^ 8 := eight ▸ bitsVal_lt s.bb
    have small : bitsVal s.bb < 2 ^ s.params.xlen := valid.lt_xlen_of_lt (byte.trans (by decide))
    exact runCommand_silent_ok (t := s.setR0 (bitsVal s.bb)) unhalted (by simp [eight, bitsToByte_toNat eight, small])
  · exact runCommand_silent_error unhalted (by simp [other])

/-! ## The commands on bytes (R137, R139) -/

section
variable {s : State} (unhalted : s.halt = false)
include unhalted

theorem exec_pages2bytes_of_whole (fits : fitsBuffer s.params s.bb.length = true) (whole : s.bb.length % 8 = 0) :
    exec .pages2bytes s = .next (answersOk { s with yb := pagesToBytes s.bb } .absent) := by
  have fitsYB : fitsBuffer s.params (pagesToBytes s.bb).length = true :=
    fitsBuffer_mono ((pagesToBytes_length s.bb).trans_le (Nat.div_le_self _ _)) fits
  exact runCommand_silent_ok (t := s.setYB (pagesToBytes s.bb)) unhalted (by simp [whole, fitsYB])

theorem exec_bin2str_of_whole (fits : fitsBuffer s.params s.bb.length = true) (whole : s.bb.length % 8 = 0) :
    exec .bin2str s = .next (answersOk { s with yb := binToStr s.bb } .absent) := by
  have fitsYB : fitsBuffer s.params (binToStr s.bb).length = true := fitsBuffer_mono (binToStr_length_le s.bb) fits
  exact runCommand_silent_ok (t := s.setYB (binToStr s.bb)) unhalted (by simp [whole, fitsYB])

end

/-- Settles O24: a whole number of chunks is as many bytes, each read where it stands. -/
theorem pages2bytesPacksChunks : Obligations.Pages2bytesPacksChunks := by
  refine ⟨fun cfg => packC0_eq_packet cfg _, fun s unhalted => ⟨fun fits whole => ?_, fun ragged => ?_⟩⟩
  · have len : 8 * (pagesToBytes s.bb).length = s.bb.length := by rw [pagesToBytes_length]; omega
    exact ⟨pagesToBytes s.bb, len, fun k hk => pagesToBytes_getD hk, exec_pages2bytes_of_whole unhalted fits whole⟩
  · exact runCommand_silent_error unhalted (by simp [ragged])

/-- Settles O25: `bin_to_str` filters what `pages_to_bytes` gives (R138). -/
theorem bin2strDropsZeroBytes : Obligations.Bin2strDropsZeroBytes := by
  refine ⟨fun cfg => packC0_eq_packet cfg _, fun s unhalted => ⟨fun fits whole => ?_, fun ragged => ?_⟩⟩
  · exact ⟨pagesToBytes s.bb, exec_pages2bytes_of_whole unhalted fits whole, exec_bin2str_of_whole unhalted fits whole⟩
  · exact runCommand_silent_error unhalted (by simp [ragged])

end Sys2Proof.Machine
end

section
/-! PROOFS. The statements of spec file 41_headercodec.md. A header that meets R152 has 844 bits, and every field is read where R100 puts it
(`slice_headerBits_…`), the bytes of a string one by one (`bitsVal_slice_bytesToBits`); what `header_parse` answers is said once
for the codes of R110 (`headerParse_of_code`) and once for the others (`headerParse_unrecognized`). The two commands are then their checks in
order and their writes. -/

namespace Sys2Proof.Machine

/-! ## Slices of joined sequences (R11) -/

/-- A slice that ends within `a` does not see what follows `a`. -/
theorem slice_append_left {a c : Bits} {i j : Nat} (h : j ≤ a.length) : slice (a ++ c) i j = slice a i j := by
  rcases Nat.le_total i j with hij | hij
  · have within : j - i ≤ (a.drop i).length := by rw [List.length_drop]; omega
    rw [slice, slice, List.drop_append_of_le_length (hij.trans h), List.take_append_of_le_length within]
  · simp [slice, Nat.sub_eq_zero_of_le hij]

/-- The slice behind `a` that is as long as `c` is `c`. -/
theorem slice_append_right {a c : Bits} {i j : Nat} (hi : a.length = i) (hj : i + c.length = j) : slice (a ++ c) i j = c := by
  subst hi hj
  simp [slice]

theorem slice_all {a : Bits} {j : Nat} (h : a.length = j) : slice a 0 j = a := by
  subst h
  simp [slice]

/-- A slice of a slice is a slice of the whole. -/
theorem slice_slice (b : Bits) {i j k l : Nat} (h : i + l ≤ j) : slice (slice b i j) k l = slice b (i + k) (i + l) := by
  have stop : min (l - k) (j - i - k) = i + l - (i + k) := by omega
  rw [slice, slice, slice, List.drop_take, List.take_take, List.drop_drop, stop]

/-- Byte `k` of a string stands at bits `8k .. 8k+7` (R66). -/
theorem bitsVal_slice_bytesToBits {y : Bytes} {k : Nat} (hk : k < y.length) :
    bitsVal (slice (bytesToBits y) (8 * k) (8 * k + 8)) = (y.getD k 0).toNat := by
  have byte := pagesToBytes_getD (b := bytesToBits y) (k := k) (by rwa [pagesToBytes_bytesToBits])
  rw [← byte, pagesToBytes_bytesToBits]

/-! ## The fields of a generated header (R100 to R103) -/

/-- The checks of `HDR.GEN` on the six fields (R152). -/
structure Header.Encodable (x : Header) : Prop where
  checksum : x.checksum.length = 64
  fname : x.fname.length ≤ 32
  psize : x.psize < 2 ^ 8
  unused : x.unused < 2 ^ 32
  tframes : x.tframes < 2 ^ 32

/-- The filename field: zero bits, then the filename (R103). -/
def Header.fnameField (x : Header) : Bits := zeros (256 - 8 * x.fname.length) ++ bytesToBits x.fname

theorem headerBits_eq (x : Header) : headerBits x =
    decToBin x.mode.code 4 ++ bytesToBits x.checksum ++ x.fnameField ++ decToBin x.psize 8 ++ decToBin x.unused 32 ++
      decToBin x.tframes 32 := rfl

section
variable {x : Header} (enc : x.Encodable)
include enc

theorem checksumField_length : (bytesToBits x.checksum).length = 512 := by
  rw [bytesToBits_length, enc.checksum]

theorem fnameField_length : x.fnameField.length = 256 := by
  have short := enc.fname
  rw [Header.fnameField, List.length_append, zeros_length, bytesToBits_length]
  omega

/-- The fields add up to `HEADER_BITS` (R100). -/
theorem headerBits_length : (headerBits x).length = 844 := by
  simp [headerBits_eq, checksumField_length enc, fnameField_length enc]

theorem slice_headerBits_checksum : slice (headerBits x) 4 516 = bytesToBits x.checksum := by
  have checksum := checksumField_length enc
  have fname := fnameField_length enc
  rw [headerBits_eq]
  iterate 4 rw [slice_append_left (by simp [checksum, fname])]
  exact slice_append_right (decToBin_length _ _) (by rw [checksum])

theorem slice_headerBits_fname : slice (headerBits x) 516 772 = x.fnameField := by
  have checksum := checksumField_length enc
  have fname := fnameField_length enc
  rw [headerBits_eq]
  iterate 3 rw [slice_append_left (by simp [checksum, fname])]
  exact slice_append_right (by simp [checksum]) (by rw [fname])

theorem slice_headerBits_psize : slice (headerBits x) 772 780 = decToBin x.psize 8 := by
  have checksum := checksumField_length enc
  have fname := fnameField_length enc
  rw [headerBits_eq]
  iterate 2 rw [slice_append_left (by simp [checksum, fname])]
  exact slice_append_right (by simp [checksum, fname]) (by simp)

theorem slice_headerBits_unused : slice (headerBits x) 780 812 = decToBin x.unused 32 := by
  have checksum := checksumField_length enc
  have fname := fnameField_length enc
  rw [headerBits_eq, slice_append_left (by simp [checksum, fname])]
  exact slice_append_right (by simp [checksum, fname]) (by simp)

theorem slice_headerBits_tframes : slice (headerBits x) 812 844 = decToBin x.tframes 32 := by
  rw [headerBits_eq]
  exact slice_append_right (by simp [checksumField_length enc, fnameField_length enc]) (by simp)

theorem bitsVal_headerBits_checksum {k : Nat} (hk : k < 64) :
    bitsVal (slice (headerBits x) (4 + 8 * k) (4 + 8 * k + 8)) = (x.checksum.getD k 0).toNat := by
  rw [Nat.add_assoc, ← slice_slice (j := 516) _ (by omega), slice_headerBits_checksum enc]
  exact bitsVal_slice_bytesToBits (enc.checksum ▸ hk)

/-- The filename field begins with its pad (R103). -/
theorem slice_headerBits_fnamePad :
    slice (headerBits x) 516 (772 - 8 * x.fname.length) = zeros (256 - 8 * x.fname.length) := by
  have short := enc.fname
  have stop : 772 - 8 * x.fname.length = 516 + (256 - 8 * x.fname.length) := by omega
  have field := slice_slice (headerBits x) (i := 516) (j := 772) (k := 0) (l := 256 - 8 * x.fname.length) (by omega)
  rw [stop, ← field, slice_headerBits_fname enc, Header.fnameField, slice_append_left (zeros_length _).ge]
  exact slice_all (zeros_length _)

theorem bitsVal_headerBits_fname {k : Nat} (hk : k < x.fname.length) :
    bitsVal (slice (headerBits x) (772 - 8 * x.fname.length + 8 * k) (772 - 8 * x.fname.length + 8 * k + 8)) =
      (x.fname.getD k 0).toNat := by
  have short := enc.fname
  have start : 772 - 8 * x.fname.length + 8 * k = 516 + (256 - 8 * x.fname.length + 8 * k) := by omega
  have behindPad := slice_append_add (zeros (256 - 8 * x.fname.length)) (bytesToBits x.fname) (8 * k) (8 * k + 8)
  rw [zeros_length, ← Nat.add_assoc] at behindPad
  rw [start, Nat.add_assoc 516, ← slice_slice (j := 772) _ (by omega), slice_headerBits_fname enc, Header.fnameField, behindPad]
  exact bitsVal_slice_bytesToBits hk

end

theorem slice_headerBits_mode (x : Header) : slice (headerBits x) 0 4 = decToBin x.mode.code 4 := by
  rw [headerBits_eq]
  iterate 5 rw [slice_append_left (by simp)]
  exact slice_all (decToBin_length _ _)

theorem bitsVal_headerBits_mode (x : Header) : bitsVal (slice (headerBits x) 0 4) = x.mode.code := by
  have small := (videoTypeLookup.1 x.mode).2
  rw [slice_headerBits_mode, bitsVal_decToBin_of_lt (by omega)]

/-! ## What `header_parse` answers (R153) -/

/-- The header that `header_parse` reads behind a type code that it recognizes as `m` (R153). -/
def Header.readBehind (m : VideoMode) (b : Bits) : Header where
  mode := m
  checksum := binToStr (slice b 4 516)
  fname := binToStr (slice b 516 772)
  psize := bitsVal (slice b 772 780)
  unused := bitsVal (slice b 780 812)
  tframes := bitsVal (slice b 812 844)

theorem headerParse_of_code {b : Bits} {m : VideoMode} (h : m.code = bitsVal (slice b 0 4)) :
    headerParse b = .ok (.readBehind m b) :=
  (work_map_ok _ (recognizeMode _) _).mpr ⟨m, by simpa [checksumOffset] using h, rfl⟩

/-- A type code above 4 denotes no mode (R111). -/
theorem headerParse_unrecognized {b : Bits} (h : 4 < bitsVal (slice b 0 4)) : headerParse b = .error .unrecognizedVideoType :=
  (work_map_error _ (recognizeMode _) _).mpr ((recognizeMode_error _ _).mpr ⟨videoTypeLookup.2.1 _ h, rfl⟩)

/-- The codes `0..4` are all taken (R110). -/
theorem exists_code_eq {c : Nat} (h : c ≤ 4) : ∃ m : VideoMode, m.code = c :=
  match c, h with
  | 0, _ => ⟨.monochrome, rfl⟩
  | 1, _ => ⟨.grayscale, rfl⟩
  | 2, _ => ⟨.color3, rfl⟩
  | 3, _ => ⟨.color8, rfl⟩
  | 4, _ => ⟨.color16, rfl⟩

/-- The bits from 844 on are not read (R153). -/
theorem headerParse_append {b : Bits} (h : 844 ≤ b.length) (rest : Bits) : headerParse (b ++ rest) = headerParse b := by
  have unread {i j : Nat} (hj : j ≤ 844) : slice (b ++ rest) i j = slice b i j := slice_append_left (Nat.le_trans hj h)
  unfold headerParse
  rw [unread (by decide), unread (by decide), unread (by decide), unread (by decide), unread (by decide), unread (by decide)]

/-- A generated header parsed: the strings lose their 0x00 bytes (R157). -/
theorem headerParse_headerBits {x : Header} (enc : x.Encodable) : headerParse (headerBits x) = .ok
    { x with checksum := x.checksum.filter (fun c => c != 0), fname := x.fname.filter (fun c => c != 0) } := by
  have checksum : binToStr (bytesToBits x.checksum) = x.checksum.filter (fun c => c != 0) := binToStr_zeros_append 0 x.checksum
  have fname : binToStr x.fnameField = x.fname.filter (fun c => c != 0) := by
    rw [Header.fnameField, show 256 - 8 * x.fname.length = 8 * (32 - x.fname.length) by omega, binToStr_zeros_append]
  rw [headerParse_of_code (bitsVal_headerBits_mode x).symm, Header.readBehind, slice_headerBits_checksum enc,
    slice_headerBits_fname enc, slice_headerBits_psize enc, slice_headerBits_unused enc, slice_headerBits_tframes enc, checksum,
    fname, bitsVal_decToBin_of_lt enc.psize, bitsVal_decToBin_of_lt enc.unused, bitsVal_decToBin_of_lt enc.tframes]

/-- Settles O31: what follows the header is not read, and a filter that has nothing to drop gives the string itself. -/
theorem headerRoundTrip : Obligations.HeaderRoundTrip := by
  intro x rest checksum fname psize unused tframes
  have enc : x.Encodable := ⟨checksum, fname, psize, unused, tframes⟩
  rw [headerParse_append (headerBits_length enc).ge, headerParse_headerBits enc]
  refine ⟨rfl, fun hc hf => ?_⟩
  rw [(filter_ne_zero_eq_self _).mpr hc, (filter_ne_zero_eq_self _).mpr hf]

/-! ## `HDR.GEN` (R152) -/

/-- A read of an unset field ends the work, and so does a later one. -/
theorem readField_bind_unset {α β : Type} {o : Option α} {f : α → Work β} (h : o = none ∨ ∀ v, f v = .error .sessionFieldUnset) :
    (readField o >>= f) = .error .sessionFieldUnset := by
  rcases o with _ | v
  · rfl
  · exact h.resolve_left nofun v

/-- A failed check ends the work with its cause, and so does later work that ends with this cause. -/
theorem require_bind_error {α : Type} {c : Prop} [Decidable c] {e : Cause} {f : Unit → Work α} (h : ¬ c ∨ f () = .error e) :
    (require c e >>= f) = .error e := by
  by_cases hc : c
  · rw [(require_ok c e ()).mpr hc]
    exact h.resolve_left (not_not_intro hc)
  · rw [(require_error c e e).mpr ⟨hc, rfl⟩]
    rfl

/-- A check that passes hands over to the work behind it. -/
theorem require_bind_of {α : Type} {c : Prop} [Decidable c] {e : Cause} {f : Unit → Work α} (h : c) : (require c e >>= f) = f () := by
  rw [(require_ok c e ()).mpr h]
  rfl

/-- The six header fields of a session are set, to those of `x`. -/
structure Srf.Holds (r : Srf) (x : Header) : Prop where
  mode : r.mode = some x.mode
  checksum : r.checksum = some x.checksum
  fname : r.fname = some x.fname
  psize : r.psize = some x.psize
  unused : r.unused = some x.unused
  tframes : r.tframes = some x.tframes

/-- The work of `HDR.GEN` behind its reads: the checks of R152 in their order, then the write. -/
def Header.generate (x : Header) (s : State) : Work State := do
  require (x.fname.length ≤ 32) .filenameTooLong
  require (x.checksum.length = 64) .checksumLength
  require (x.psize < 2 ^ 8) .widthTooSmall
  require (x.unused < 2 ^ 32) .widthTooSmall
  require (x.tframes < 2 ^ 32) .widthTooSmall
  storeBB s (headerBits x)

theorem exec_hdrGen_of_holds {s : State} {x : Header} (h : s.srf.Holds x) :
    exec .hdrGen s = runCommand s (silent (x.generate s)) := by
  rw [exec, execHdrGen, h.mode, h.checksum, h.fname, h.psize, h.unused, h.tframes]
  rfl

theorem Header.Encodable.generate {x : Header} (enc : x.Encodable) {s : State} (valid : s.params.Valid) :
    x.generate s = .ok (s.setBB (headerBits x)) := by
  have fits : fitsBuffer s.params (headerBits x).length = true := fitsBuffer_of_le_header valid (headerBits_length enc).le
  rw [Header.generate, require_bind_of enc.fname, require_bind_of enc.checksum, require_bind_of enc.psize, require_bind_of enc.unused,
    require_bind_of enc.tframes]
  exact (storeBB_ok _ _ _).mpr ⟨fits, rfl⟩

/-- Settles O27: with its checks met `HDR.GEN` writes `header_bits`, whose fields are read one by one. -/
theorem hdrGenWritesTheLayout : Obligations.HdrGenWritesTheLayout := by
  refine ⟨fun cfg => packC0_eq_packet cfg _, ?_⟩
  intro s m c n p u f unhalted valid mode checksum fname psize unused tframes hc hn hp hu hf
  have enc : Header.Encodable ⟨m, c, n, p, u, f⟩ := ⟨hc, hn, hp, hu, hf⟩
  have holds : s.srf.Holds ⟨m, c, n, p, u, f⟩ := ⟨mode, checksum, fname, psize, unused, tframes⟩
  refine ⟨headerBits ⟨m, c, n, p, u, f⟩, headerBits_length enc, bitsVal_headerBits_mode _, fun k => bitsVal_headerBits_checksum enc,
    slice_headerBits_fnamePad enc, fun k => bitsVal_headerBits_fname enc, ?_, ?_, ?_, ?_⟩
  · rw [slice_headerBits_psize enc, bitsVal_decToBin_of_lt hp]
  · rw [slice_headerBits_unused enc, bitsVal_decToBin_of_lt hu]
  · rw [slice_headerBits_tframes enc, bitsVal_decToBin_of_lt hf]
  · rw [exec_hdrGen_of_holds holds]
    exact runCommand_silent_ok unhalted (enc.generate valid)

/-- Settles O28: the reads end with the first unset field, then the checks with the first that fails. -/
theorem hdrGenFaultsInOrder : Obligations.HdrGenFaultsInOrder := by
  refine ⟨fun s unhalted unset => runCommand_silent_error unhalted ?_, ?_⟩
  · exact readField_bind_unset <| unset.imp_right fun unset _ => readField_bind_unset <| unset.imp_right fun unset _ =>
      readField_bind_unset <| unset.imp_right fun unset _ => readField_bind_unset <| unset.imp_right fun unset _ =>
      readField_bind_unset <| unset.imp_right fun unset _ => readField_bind_unset (.inl unset)
  · intro s m c n p u f unhalted mode checksum fname psize unused tframes
    have holds : s.srf.Holds ⟨m, c, n, p, u, f⟩ := ⟨mode, checksum, fname, psize, unused, tframes⟩
    rw [exec_hdrGen_of_holds holds]
    refine ⟨fun long => ?_, fun short hc => ?_, fun short hc wide => ?_⟩
    · exact runCommand_silent_error unhalted (require_bind_error (.inl (Nat.not_le_of_lt long)))
    · refine runCommand_silent_error unhalted ?_
      rw [Header.generate, require_bind_of short]
      exact require_bind_error (.inl hc)
    · refine runCommand_silent_error unhalted ?_
      rw [Header.generate, require_bind_of short, require_bind_of hc]
      exact require_bind_error <| wide.imp Nat.not_lt_of_le fun wide =>
        require_bind_error <| wide.imp Nat.not_lt_of_le fun wide => require_bind_error (.inl (Nat.not_lt_of_le wide))

/-! ## `HDR.PARSE` (R155, R156) -/

/-- Settles O29: the checks of R155 in their order, then the fields of the parsed header. -/
theorem hdrParseFillsTheSession : Obligations.HdrParseFillsTheSession := by
  refine ⟨fun cfg => packC0_eq_packet cfg _, fun s unhalted => ⟨fun sealed => ?_, fun unsealed short => ?_,
    fun unsealed long unrecognized => ?_, fun unsealed long recognized => ?_⟩⟩
  · exact runCommand_silent_error unhalted (require_bind_error (.inl (by simp [sealed])))
  · refine runCommand_silent_error unhalted ?_
    rw [requireUnsealed, require_bind_of unsealed]
    exact require_bind_error (.inl (Nat.not_le_of_lt short))
  · refine runCommand_silent_error unhalted ?_
    rw [requireUnsealed, require_bind_of unsealed, require_bind_of long, headerParse_unrecognized unrecognized]
    rfl
  · obtain ⟨m, code⟩ := exists_code_eq recognized
    refine ⟨m, code, runCommand_silent_ok (t := (s.setSrf (s.srf.ofHeader (.readBehind m s.bb))).seal) unhalted ?_⟩
    rw [requireUnsealed, require_bind_of unsealed, require_bind_of long, headerParse_of_code code]
    rfl

/-- Settles O30: of the ends of a command only completion leaves the CORE unhalted, and what `HDR.PARSE` then leaves is a parsed header. -/
theorem parsedSessionIsBounded : Obligations.ParsedSessionIsBounded := by
  intro s t unhalted ht running
  rcases exec_ends ht with ⟨halted, -⟩ | ⟨-, u, d, completes, rfl⟩ | ⟨-, c, -, rfl⟩
  · exact absurd halted (by simp [unhalted])
  · cases completes with
    | hdrParse _ parsed => exact ⟨s.srf.ofHeader_parsed (headerParse_bounded parsed), rfl, rfl⟩
    | writesBB writer | writesYB writer | writesR0 writer => cases writer
  · cases running

end Sys2Proof.Machine
end

section
/-! PROOFS. The statements of spec file 42_blockraster.md. Three layers carry them: which block a pixel of a tiling raster belongs to (R64), which
bits a decoded frame holds and how far a painted pixel may move before it stands for other bits (R173, R174, R184), and how the common checks of
the three commands end (R175, R176). -/

namespace Sys2Proof.Machine

/-! ## The pixels of a block (R64) -/

/-- The geometry passes `geometry_ok` (R176). -/
structure Raster.Tiles (g : Raster) : Prop where
  edgePos : 1 ≤ g.edge
  widthPos : 1 ≤ g.width
  heightPos : 1 ≤ g.height
  widthTiles : g.width % g.edge = 0
  heightTiles : g.height % g.edge = 0

/-- An offset in block `i` of `count` blocks is inside them, and dividing by the edge gives the block back. -/
theorem block_offset_lt_and_div {edge count i d : Nat} (hi : i < count) (hd : d < edge) :
    i * edge + d < count * edge ∧ (i * edge + d) / edge = i := by
  have pos : 0 < edge := Nat.zero_lt_of_lt hd
  constructor
  · calc
      i * edge + d < i * edge + edge := Nat.add_lt_add_left hd _
      _ = (i + 1) * edge := (Nat.succ_mul i edge).symm
      _ ≤ count * edge := Nat.mul_le_mul_right edge hi
  · rw [Nat.mul_comm, Nat.mul_add_div pos, Nat.div_eq_of_lt hd, Nat.add_zero]

/-- Inside the frame the painted pixel has the colour of the block that covers it (R173). -/
theorem Raster.encode_pixel (g : Raster) (bits : Bits) {x y : Nat} (hx : x < g.width) (hy : y < g.height) :
    (g.encode bits).pixel x y = g.colour (g.page bits) (g.blockOf x y) := by
  have ⟨inside, row⟩ := block_offset_lt_and_div hy hx
  have column : (y * g.width + x) % g.width = x := by rw [Nat.mul_add_mod_self_right, Nat.mod_eq_of_lt hx]
  rw [Nat.mul_comm g.height] at inside
  simp [Frame.pixel, Raster.encode, inside, row, column]

section
variable {g : Raster} (tiles : g.Tiles) {n : Nat} (hn : n < g.blocks)
include tiles hn

/-- Every pixel of block `n` is painted in the colour of block `n` (R64, R173). -/
theorem Raster.encode_pixel_of_block (bits : Bits) {dx dy : Nat} (hdx : dx < g.edge) (hdy : dy < g.edge) :
    (g.encode bits).pixel (n % g.cols * g.edge + dx) (n / g.cols * g.edge + dy) = g.colour (g.page bits) n := by
  have colsPos : 0 < g.cols := div_pos_of_mod_eq_zero tiles.widthPos tiles.edgePos tiles.widthTiles
  have hrow : n / g.cols < g.rows := Nat.div_lt_of_lt_mul hn
  obtain ⟨insideX, column⟩ := block_offset_lt_and_div (Nat.mod_lt n colsPos) hdx
  obtain ⟨insideY, row⟩ := block_offset_lt_and_div hrow hdy
  have width : g.cols * g.edge = g.width := Nat.div_mul_cancel (Nat.dvd_of_mod_eq_zero tiles.widthTiles)
  have height : g.rows * g.edge = g.height := Nat.div_mul_cancel (Nat.dvd_of_mod_eq_zero tiles.heightTiles)
  rw [width] at insideX
  rw [height] at insideY
  rw [g.encode_pixel bits insideX insideY, Raster.blockOf, column, row, Nat.div_add_mod']

theorem Raster.encode_pixel_centre (bits : Bits) :
    (g.encode bits).pixel (g.centreX n) (g.centreY n) = g.colour (g.page bits) n :=
  have centre : g.edge / 2 < g.edge := Nat.div_lt_self tiles.edgePos (by decide)
  encode_pixel_of_block tiles hn bits centre centre

end

/-! ## The page (R173) -/

/-- The padding is zero bits, as is everything past the end. -/
theorem Raster.page_getD (g : Raster) (bits : Bits) (k : Nat) : (g.page bits).getD k false = bits.getD k false := by
  rw [Raster.page, zeros]
  rcases Nat.lt_or_ge k bits.length with inside | past
  · rw [List.getD_append _ _ _ _ inside]
  · rw [List.getD_append_right _ _ _ _ past, List.getD_eq_default _ _ past, List.getD_eq_getElem?_getD,
      List.getElem?_getD_replicate_default_eq]

theorem Raster.page_length {g : Raster} {bits : Bits} (fits : bits.length ≤ g.capacity) : (g.page bits).length = g.capacity := by
  simp [Raster.page, fits]

/-! ## The bits of a decoded frame (R174) -/

/-- In pieces of `m` bits each, bit `k` of piece `n` stands at `m * n + k`. -/
theorem getD_flatMap_range {piece : Nat → Bits} {m : Nat} (len : ∀ n, (piece n).length = m) {count n k : Nat} (hn : n < count)
    (hk : k < m) : ((List.range count).flatMap piece).getD (m * n + k) false = (piece n).getD k false := by
  induction count with
  | zero => cases hn
  | succ count ih =>
    have front : ((List.range count).flatMap piece).length = m * count := by simp [len, Nat.mul_comm]
    rw [List.range_succ, List.flatMap_append, List.flatMap_singleton]
    rcases Nat.lt_succ_iff_lt_or_eq.mp hn with earlier | rfl
    · have inside : m * n + k < m * count := by
        have := (block_offset_lt_and_div earlier hk).1
        rwa [Nat.mul_comm n, Nat.mul_comm count] at this
      rw [List.getD_append _ _ _ _ (front.symm ▸ inside), ih earlier]
    · rw [List.getD_append_right _ _ _ _ (front.symm ▸ Nat.le_add_right _ _), front, Nat.add_sub_cancel_left]

theorem pixelBits_length (d : Density) (p : Pixel) : (pixelBits d p).length = d.bpb := by
  cases d <;> rfl

theorem Density.bpb_pos (d : Density) : 0 < d.bpb := by
  cases d <;> decide

theorem Raster.decode_length (g : Raster) (f : Frame) : (g.decode f).length = g.capacity := by
  simp [Raster.decode, pixelBits_length, Raster.capacity, Raster.blocks]

/-- The bits of block `n` are those of its centre pixel (R174). -/
theorem Raster.decode_getD (g : Raster) (f : Frame) {n k : Nat} (hn : n < g.blocks) (hk : k < g.density.bpb) :
    (g.decode f).getD (g.density.bpb * n + k) false = (pixelBits g.density (f.pixel (g.centreX n) (g.centreY n))).getD k false :=
  getD_flatMap_range (fun _ => pixelBits_length _ _) hn hk

/-- A frame decodes to the page whose bits its centre pixels stand for. -/
theorem Raster.decode_eq_of_centres {g : Raster} {f : Frame} {page : Bits} (len : page.length = g.capacity)
    (centres : ∀ n k, n < g.blocks → k < g.density.bpb →
      (pixelBits g.density (f.pixel (g.centreX n) (g.centreY n))).getD k false = page.getD (g.density.bpb * n + k) false) :
    g.decode f = page := by
  refine List.ext_getElem ((g.decode_length f).trans len.symm) fun i hi hi' => ?_
  have block : i / g.density.bpb < g.blocks := by
    rw [Raster.decode_length] at hi
    exact Nat.div_lt_of_lt_mul (by rwa [Nat.mul_comm])
  have bit : i % g.density.bpb < g.density.bpb := Nat.mod_lt i g.density.bpb_pos
  have same := (g.decode_getD f block bit).trans (centres _ _ block bit)
  rwa [Nat.div_add_mod, List.getD_eq_getElem _ _ hi, List.getD_eq_getElem _ _ hi'] at same

/-! ## Pixels near a painted one (R184) -/

/-- Two channel values less than 127 levels apart. -/
def ChannelNear (a b : Byte) : Prop := a.toNat < b.toNat + 127 ∧ b.toNat < a.toNat + 127

/-- Two pixels less than 127 levels apart on every channel. -/
structure Pixel.Near (p q : Pixel) : Prop where
  r : ChannelNear p.r q.r
  g : ChannelNear p.g q.g
  b : ChannelNear p.b q.b

theorem Pixel.Near.refl (p : Pixel) : p.Near p :=
  have same (c : Byte) : ChannelNear c c := ⟨by omega, by omega⟩
  ⟨same _, same _, same _⟩

theorem channelOf_toNat (bit : Bool) : (channelOf bit).toNat = if bit then 255 else 0 := by
  cases bit <;> rfl

/-- A channel near a painted one stays on its bit's side of the threshold 128, with a level to spare on either side. -/
theorem ChannelNear.toNat_of_channelOf {c : Byte} {bit : Bool} (near : ChannelNear c (channelOf bit)) :
    if bit then 129 ≤ c.toNat else c.toNat ≤ 126 := by
  obtain ⟨above, below⟩ := near
  rw [channelOf_toNat] at above below
  cases bit <;> simp at above below ⊢ <;> omega

theorem channelBit_of_near {c : Byte} {bit : Bool} (near : ChannelNear c (channelOf bit)) : channelBit c = bit := by
  have level := near.toNat_of_channelOf
  cases bit <;> simp [channelBit] at level ⊢ <;> omega

/-- Three channels painted for one bit may all move: their sum stays on its side of 384 (R180). -/
theorem monoBit_of_near {p : Pixel} {bit : Bool} (r : ChannelNear p.r (channelOf bit)) (g : ChannelNear p.g (channelOf bit))
    (b : ChannelNear p.b (channelOf bit)) : monoBit p = bit := by
  have levelR := r.toNat_of_channelOf
  have levelG := g.toNat_of_channelOf
  have levelB := b.toNat_of_channelOf
  cases bit <;> simp [monoBit] at levelR levelG levelB ⊢ <;> omega

/-- A pixel near the colour of block `n` stands for block `n`'s bits of the page. -/
theorem Raster.pixelBits_getD_of_near {g : Raster} {page : Bits} {p : Pixel} {n k : Nat} (near : p.Near (g.colour page n))
    (hk : k < g.density.bpb) : (pixelBits g.density p).getD k false = page.getD (g.density.bpb * n + k) false := by
  obtain ⟨r, gr, b⟩ := near
  rw [Raster.colour] at r gr b
  cases mode : g.density with
  | monochrome =>
    rw [mode] at r gr b hk
    obtain rfl : k = 0 := Nat.lt_one_iff.mp hk
    simpa [pixelBits, Density.bpb] using monoBit_of_near r gr b
  | color3 =>
    rw [mode] at r gr b hk
    match k, hk with
    | 0, _ => exact channelBit_of_near r
    | 1, _ => exact channelBit_of_near gr
    | 2, _ => exact channelBit_of_near b

/-- A frame whose centre pixels are near those that `raster_encode` paints decodes to the page (R183, R184). -/
theorem Raster.decode_eq_page_of_near {g : Raster} {bits : Bits} {f : Frame} (tiles : g.Tiles) (fits : bits.length ≤ g.capacity)
    (near : ∀ n, n < g.blocks →
      (f.pixel (g.centreX n) (g.centreY n)).Near ((g.encode bits).pixel (g.centreX n) (g.centreY n))) :
    g.decode f = g.page bits := by
  refine decode_eq_of_centres (page_length fits) fun n k hn hk => pixelBits_getD_of_near ?_ hk
  rw [← encode_pixel_centre tiles hn bits]
  exact near n hn

theorem Raster.decode_encode {g : Raster} {bits : Bits} (tiles : g.Tiles) (fits : bits.length ≤ g.capacity) :
    g.decode (g.encode bits) = g.page bits :=
  decode_eq_page_of_near tiles fits fun _ _ => .refl _

/-- Settles O36: every painted centre pixel is its own near pixel. -/
theorem rasterRoundTrip : Obligations.RasterRoundTrip :=
  fun _ _ he hw hh tilesW tilesH fits => Raster.decode_encode ⟨he, hw, hh, tilesW, tilesH⟩ fits

/-- Settles O37: the moved frame and the painted one both decode to the page. -/
theorem decodeToleratesSmallShifts : Obligations.DecodeToleratesSmallShifts := by
  intro g bits f he hw hh tilesW tilesH fits near
  have tiles : g.Tiles := ⟨he, hw, hh, tilesW, tilesH⟩
  have moved : g.decode f = g.page bits := Raster.decode_eq_page_of_near tiles fits fun n hn =>
    have ⟨r, gr, b⟩ := near n hn
    ⟨r, gr, b⟩
  rw [moved, Raster.decode_encode tiles fits]

/-! ## The common checks (R175, R176) -/

theorem modeOperand_unrecognized {mode : Nat} (h : 4 < mode) : modeOperand mode = .error .unrecognizedVideoType := by
  obtain ⟨k, rfl⟩ := Nat.exists_eq_add_of_lt h
  rw [Nat.add_right_comm, Nat.add_comm]
  rfl

theorem modeOperand_reserved {mode : Nat} (h : mode = 1 ∨ mode = 3 ∨ mode = 4) : modeOperand mode = .error .unsupportedMode := by
  rcases h with rfl | rfl | rfl <;> rfl

section
variable {mode edge : Nat} {s : State}

theorem rasterSetup_of_large (large : 2 ^ s.params.dimBits ≤ edge) : rasterSetup mode edge s = .error .operandRange := by
  rw [rasterSetup, (blockSizeOperand_error _ _ _).mpr ⟨Nat.not_lt.mpr large, rfl⟩]
  rfl

section
variable (small : edge < 2 ^ s.params.dimBits)
include small

theorem rasterSetup_of_modeOperand_error {c : Cause} (h : modeOperand mode = .error c) : rasterSetup mode edge s = .error c := by
  rw [rasterSetup, (blockSizeOperand_ok _ _ _).mpr ⟨small, rfl⟩, h]
  rfl

variable {d : Density} (implemented : modeOperand mode = .ok d)
include implemented

theorem rasterSetup_of_unset (unset : s.srf.w = none ∨ s.srf.h = none) : rasterSetup mode edge s = .error .sessionFieldUnset := by
  rw [rasterSetup, (blockSizeOperand_ok _ _ _).mpr ⟨small, rfl⟩, implemented]
  exact readField_bind_unset (unset.imp_right fun unset _ => readField_bind_unset (.inl unset))

variable {w h : Nat} (width : s.srf.w = some w) (height : s.srf.h = some h)
include width height

/-- With every other check met the geometry check ends the work (R176). -/
theorem rasterSetup_eq_geometryOk : rasterSetup mode edge s =
    (geometryOk edge w h >>= fun _ => pure { density := d, edge := edge, width := w, height := h }) := by
  rw [rasterSetup, (blockSizeOperand_ok _ _ _).mpr ⟨small, rfl⟩, implemented, width, height]
  rfl

theorem rasterSetup_of_tiles (tiles : Raster.Tiles ⟨d, edge, w, h⟩) :
    rasterSetup mode edge s = .ok { density := d, edge := edge, width := w, height := h } := by
  have passes : geometryOk edge w h = .ok () := (geometryOk_ok _ _ _ _).mpr
    ⟨⟨tiles.edgePos, tiles.widthPos, tiles.heightPos⟩, tiles.widthTiles, tiles.heightTiles⟩
  rw [rasterSetup_eq_geometryOk small implemented width height, passes]
  rfl

theorem rasterSetup_of_incompatible (bad : edge = 0 ∨ w = 0 ∨ h = 0 ∨ w % edge ≠ 0 ∨ h % edge ≠ 0) :
    rasterSetup mode edge s = .error .incompatibleDimensions := by
  have fails : geometryOk edge w h = .error .incompatibleDimensions := (geometryOk_error _ _ _ _).mpr ⟨by omega, rfl⟩
  rw [rasterSetup_eq_geometryOk small implemented width height, fails]
  rfl

end

/-- An implemented mode is the code of a density with its bits-per-block constant (R171, R175). -/
theorem exists_density_of_code {bpb : Nat} (h : (mode = 0 ∧ bpb = 1) ∨ (mode = 2 ∧ bpb = 3)) :
    ∃ d : Density, d.bpb = bpb ∧ modeOperand mode = .ok d := by
  rcases h with ⟨rfl, rfl⟩ | ⟨rfl, rfl⟩
  · exact ⟨.monochrome, rfl, rfl⟩
  · exact ⟨.color3, rfl, rfl⟩

/-- A cause of the common checks is the cause of each of the three commands. -/
theorem exec_raster_of_setup_error {i : Instr} {c : Cause} (unhalted : s.halt = false)
    (hi : i ∈ [Instr.rasterCap mode edge, .rasterEnc mode edge, .rasterDec mode edge]) (setup : rasterSetup mode edge s = .error c) :
    exec i s = .next (answersFault s c) := by
  simp only [List.mem_cons, List.not_mem_nil, or_false] at hi
  rcases hi with rfl | rfl | rfl <;> exact runCommand_silent_error unhalted ((work_bind_error _ _ _).mpr (.inl setup))

end

/-- Settles O33: the common checks end with the first cause they meet. -/
theorem rasterFaultsInOrder : Obligations.RasterFaultsInOrder := by
  intro mode edge s i unhalted hi
  have faults {c : Cause} (setup : rasterSetup mode edge s = .error c) : exec i s = .next (answersFault s c) :=
    exec_raster_of_setup_error unhalted hi setup
  refine ⟨fun large => faults (rasterSetup_of_large large), fun small => ⟨fun unknown => ?_, fun reserved => ?_, fun known => ?_⟩⟩
  · exact faults (rasterSetup_of_modeOperand_error small (modeOperand_unrecognized unknown))
  · exact faults (rasterSetup_of_modeOperand_error small (modeOperand_reserved reserved))
  · obtain ⟨d, implemented⟩ : ∃ d, modeOperand mode = .ok d := by
      rcases known with rfl | rfl
      · exact ⟨.monochrome, rfl⟩
      · exact ⟨.color3, rfl⟩
    exact ⟨fun unset => faults (rasterSetup_of_unset small implemented unset),
      fun w h width height bad => faults (rasterSetup_of_incompatible small implemented width height bad)⟩

/-! ## The commands behind their common checks (R177, R178, R182) -/

section
variable {mode edge : Nat} {s : State} {g : Raster} (setup : rasterSetup mode edge s = .ok g)
include setup

theorem exec_rasterCap_of_setup : exec (.rasterCap mode edge) s = runCommand s (silent (storeR0 s g.capacity)) := by
  rw [exec, execRasterCap, setup, work_ok_bind]

theorem exec_rasterEnc_of_setup : exec (.rasterEnc mode edge) s = runCommand s (silent do
    require (s.bb.length ≤ g.capacity) .capacityExceeded
    pure (s.setPX (g.encode s.bb))) := by
  rw [exec, execRasterEnc, setup, work_ok_bind]

theorem exec_rasterDec_of_setup : exec (.rasterDec mode edge) s = runCommand s (silent do
    let f ← readPX s
    require (f.w = g.width ∧ f.h = g.height) .frameLengthMismatch
    storeBB s (g.decode f)) := by
  rw [exec, execRasterDec, setup, work_ok_bind]

end

/-- Settles O32: the capacity of the raster that the common checks answer, through the checked write of `R0`. -/
theorem rasterCapCountsBits : Obligations.RasterCapCountsBits := by
  intro mode edge s w h bpb unhalted code small width height he hw hh tilesW tilesH
  obtain ⟨d, rfl, implemented⟩ := exists_density_of_code code
  have setup := rasterSetup_of_tiles small implemented width height ⟨he, hw, hh, tilesW, tilesH⟩
  rw [exec_rasterCap_of_setup setup]
  refine ⟨packC2_eq_packet _ _ _ _, fun overflow => ?_, fun fits => ?_⟩
  · exact runCommand_silent_error unhalted ((storeR0_error _ _ _).mpr ⟨Nat.not_lt.mpr overflow, rfl⟩)
  · exact runCommand_silent_ok unhalted ((storeR0_ok _ _ _).mpr ⟨fits, rfl⟩)

/-- The colour of a block, by the bits of the sequence before padding (R115, R116, R173). -/
theorem Raster.colour_page (g : Raster) (bits : Bits) (n : Nat) :
    let level := fun k => if bits.getD k false then (255 : Byte) else 0
    (g.density.bpb = 1 → g.colour (g.page bits) n = { r := level n, g := level n, b := level n }) ∧
    (g.density.bpb = 3 →
      g.colour (g.page bits) n = { r := level (3 * n), g := level (3 * n + 1), b := level (3 * n + 2) }) := by
  simp only [Raster.colour, page_getD]
  cases g.density with
  | monochrome => exact ⟨fun _ => rfl, nofun⟩
  | color3 => exact ⟨nofun, fun _ => rfl⟩

/-- Settles O34: the frame is `raster_encode`'s, read pixel by pixel. -/
theorem rasterEncPaintsBlocks : Obligations.RasterEncPaintsBlocks := by
  intro mode edge s w h bpb unhalted code small width height he hw hh tilesW tilesH
  obtain ⟨d, rfl, implemented⟩ := exists_density_of_code code
  let g : Raster := ⟨d, edge, w, h⟩
  have tiles : g.Tiles := ⟨he, hw, hh, tilesW, tilesH⟩
  rw [exec_rasterEnc_of_setup (rasterSetup_of_tiles small implemented width height tiles)]
  refine ⟨packC2_eq_packet _ _ _ _, fun long => ?_, fun fits => ?_⟩
  · exact runCommand_silent_error unhalted (require_bind_error (.inl (Nat.not_le_of_lt long)))
  · refine ⟨g.encode s.bb, g.encode_w _, g.encode_h _, (Frame.wf_iff _).mp (g.encode_wf _), fun n dx dy hn hdx hdy => ?_,
      runCommand_silent_ok unhalted (require_bind_of fits)⟩
    have painted := Raster.encode_pixel_of_block tiles hn s.bb hdx hdy
    have colours := g.colour_page s.bb n
    rw [← painted] at colours
    exact colours

/-- The bits of a block as the thresholds of R180 and R181 give them. -/
theorem Raster.decode_block (g : Raster) (f : Frame) {n : Nat} (hn : n < g.blocks) :
    let px := f.pixel (g.centreX n) (g.centreY n)
    (g.density.bpb = 1 → (g.decode f).getD n false = decide (384 ≤ px.r.toNat + px.g.toNat + px.b.toNat)) ∧
    (g.density.bpb = 3 → (g.decode f).getD (3 * n) false = decide (128 ≤ px.r.toNat) ∧
      (g.decode f).getD (3 * n + 1) false = decide (128 ≤ px.g.toNat) ∧
      (g.decode f).getD (3 * n + 2) false = decide (128 ≤ px.b.toNat)) := by
  have bits (k : Nat) (hk : k < g.density.bpb) := g.decode_getD f hn hk
  cases mode : g.density with
  | monochrome =>
    rw [mode] at bits
    refine ⟨fun _ => ?_, nofun⟩
    have bit := bits 0 (by decide)
    rwa [Density.bpb, Nat.one_mul] at bit
  | color3 =>
    rw [mode] at bits
    exact ⟨nofun, fun _ => ⟨bits 0 (by decide), bits 1 (by decide), bits 2 (by decide)⟩⟩

/-- Settles O35: the checks of R182 in order, then `raster_decode`, read block by block. -/
theorem rasterDecSamplesCentres : Obligations.RasterDecSamplesCentres := by
  intro mode edge s w h bpb unhalted code small width height he hw hh tilesW tilesH
  obtain ⟨d, rfl, implemented⟩ := exists_density_of_code code
  let g : Raster := ⟨d, edge, w, h⟩
  rw [exec_rasterDec_of_setup (rasterSetup_of_tiles small implemented width height ⟨he, hw, hh, tilesW, tilesH⟩)]
  have read {f : Frame} (px : s.px = some f) : readPX s = .ok f := (readPX_ok _ _).mpr px
  refine ⟨packC2_eq_packet _ _ _ _, fun invalid => ?_, fun f px mismatch => ?_, fun f px fw fh overflow => ?_, fun f px fw fh fits => ?_⟩
  · exact runCommand_silent_error unhalted ((work_bind_error _ _ _).mpr (.inl ((readPX_error _ _).mpr ⟨invalid, rfl⟩)))
  · rw [read px, work_ok_bind]
    exact runCommand_silent_error unhalted (require_bind_error (.inl (not_and_or.mpr mismatch)))
  · rw [read px, work_ok_bind, require_bind_of ⟨fw, fh⟩]
    exact runCommand_silent_error unhalted ((storeBB_error _ _ _).mpr ⟨g.decode_length f ▸ overflow, rfl⟩)
  · rw [read px, work_ok_bind, require_bind_of ⟨fw, fh⟩]
    exact ⟨g.decode f, g.decode_length f, fun n hn => g.decode_block f hn,
      runCommand_silent_ok unhalted ((storeBB_ok _ _ _).mpr ⟨g.decode_length f ▸ fits, rfl⟩)⟩

end Sys2Proof.Machine
end

section
/-! PROOFS. The statements of spec file 43_chunking.md. The two divisions of R201, the loop of R204 by recursion on its candidate, the frames of
a file by where they begin (`lt_totalFrames_iff`) and what they keep (`keptBytes_of_file`). A command of this file is then its reads and checks
in order and its writes; and no command overflows at the defaults, because each of its results is bounded by what the invariant says of the
registers it came from (`exec_runsWithoutOverflow`). -/

namespace Sys2Proof.Machine

/-! ## Reads of set fields (R34) -/

/-- A read of a set field hands over to the work behind it. -/
theorem readField_bind_of {α β : Type} {o : Option α} {v : α} {f : α → Work β} (h : o = some v) : (readField o >>= f) = f v := by
  rw [h]
  rfl

/-! ## The bytes of a frame (R201, R203) -/

/-- When the block size tiles both sides, the division of areas counts the blocks (R64). -/
theorem area_div_eq_blocks {edge width height : Nat} (hw : width % edge = 0) (hh : height % edge = 0) :
    width * height / (edge * edge) = width / edge * (height / edge) :=
  (Nat.div_mul_div_comm (Nat.dvd_of_mod_eq_zero hw) (Nat.dvd_of_mod_eq_zero hh)).symm

/-- `bytes_per_frame` answers exactly when both divisions of R201 are exact, for sides and edge of at least 1. -/
theorem bytesPerFrame_eq_ok {d : Density} {edge width height v : Nat} : bytesPerFrame d edge width height = .ok v ↔
    (1 ≤ edge ∧ 1 ≤ width ∧ 1 ≤ height) ∧ width * height * d.bpb % (edge * edge) = 0 ∧
      width * height * d.bpb / (edge * edge) % 8 = 0 ∧ width * height * d.bpb / (edge * edge) / 8 = v := by
  simp [bytesPerFrame]

/-- Each check of R201 that fails is `IncompatibleDimensions`. -/
theorem bytesPerFrame_of_incompatible {d : Density} {edge width height : Nat}
    (bad : edge = 0 ∨ width = 0 ∨ height = 0 ∨ width * height * d.bpb % (edge * edge) ≠ 0 ∨
      width * height * d.bpb / (edge * edge) % 8 ≠ 0) :
    bytesPerFrame d edge width height = .error .incompatibleDimensions := by
  by_cases positive : 1 ≤ edge ∧ 1 ≤ width ∧ 1 ≤ height
  · have inexact : width * height * d.bpb % (edge * edge) ≠ 0 ∨ width * height * d.bpb / (edge * edge) % 8 ≠ 0 := by omega
    rw [bytesPerFrame, require_bind_of positive]
    exact require_bind_error (inexact.imp_right fun inexact => require_bind_error (.inl inexact))
  · exact require_bind_error (.inl positive)

/-- Settles O39: a tiled frame's bits are the bits of its blocks, and both divisions of R201 are exact. -/
theorem capacityIsEightBytesPerFrame : Obligations.CapacityIsEightBytesPerFrame := by
  intro d edge v w h tilesW tilesH bytes
  obtain ⟨-, -, whole, rfl⟩ := bytesPerFrame_eq_ok.mp bytes
  have area : edge * edge ∣ w * h := Nat.mul_dvd_mul (Nat.dvd_of_mod_eq_zero tilesW) (Nat.dvd_of_mod_eq_zero tilesH)
  calc 8 * (w * h * d.bpb / (edge * edge) / 8)
    _ = w * h * d.bpb / (edge * edge) := Nat.mul_div_cancel' (Nat.dvd_of_mod_eq_zero whole)
    _ = w * h / (edge * edge) * d.bpb := (Nat.div_mul_right_comm area d.bpb).symm
    _ = w / edge * (h / edge) * d.bpb := by rw [area_div_eq_blocks tilesW tilesH]

/-! ## `CHUNK.BPF` (R202) -/

/-- The mode check of R175 on a mode's code is the mode's own. -/
theorem modeOperand_code (m : VideoMode) : modeOperand m.code = m.density := by
  cases m <;> rfl

theorem exec_chunkBpf_of_set {s : State} {m : VideoMode} {e w h : Nat} (mode : s.srf.mode = some m) (psize : s.srf.psize = some e)
    (width : s.srf.w = some w) (height : s.srf.h = some h) : exec .chunkBpf s = runCommand s (silent do
      let d ← m.density
      let v ← bytesPerFrame d e w h
      let r ← toWord s.params v
      pure ((s.setSrf { s.srf with bpf := some r }).setR0 r)) := by
  rw [exec, execChunkBpf, mode, psize, width, height]
  rfl

/-- Settles O38: the reads, the mode check, the two divisions and the checked writes, in the order of R202. -/
theorem chunkBpfComputesBytesPerFrame : Obligations.ChunkBpfComputesBytesPerFrame := by
  refine ⟨fun cfg => packC0_eq_packet cfg _, fun s unhalted unset => runCommand_silent_error unhalted ?_, ?_⟩
  · exact readField_bind_unset <| unset.imp_right fun unset _ => readField_bind_unset <| unset.imp_right fun unset _ =>
      readField_bind_unset <| unset.imp_right fun unset _ => readField_bind_unset (.inl unset)
  · intro s m e w h unhalted mode psize width height
    rw [exec_chunkBpf_of_set mode psize width height, ← modeOperand_code]
    refine ⟨fun reserved => ?_, fun bpb code => ?_⟩
    · rw [modeOperand_reserved reserved]
      exact runCommand_silent_error unhalted rfl
    · obtain ⟨d, rfl, implemented⟩ := exists_density_of_code code
      rw [implemented, work_ok_bind]
      refine ⟨fun bad => ?_, fun he hw hh square byte => ?_⟩
      · rw [bytesPerFrame_of_incompatible bad]
        exact runCommand_silent_error unhalted rfl
      · have bytes := bytesPerFrame_eq_ok.mpr ⟨⟨he, hw, hh⟩, square, byte, rfl⟩
        rw [bytes, work_ok_bind]
        refine ⟨_, rfl, bytesPerFrame_pos bytes, fun overflow => ?_, fun fits => ?_⟩
        · rw [(toWord_error _ _ _).mpr ⟨Nat.not_lt.mpr overflow, rfl⟩]
          exact runCommand_silent_error unhalted rfl
        · rw [(toWord_ok _ _ _).mpr ⟨fits, rfl⟩]
          exact runCommand_silent_ok unhalted rfl

/-! ## `CHUNK.MAXBLK` (R204 to R206) -/

/-- A block size that divides both sides and makes strictly more blocks than required (R204). -/
structure SplitsInto (required width height edge : Nat) : Prop where
  tilesWidth : width % edge = 0
  tilesHeight : height % edge = 0
  enough : required < width * height / (edge * edge)

/-- The loop's answer splits the frame, and no greater candidate does. -/
theorem maxBlockFrom_some {required width height n e : Nat} (h : maxBlockFrom required width height n = some e) :
    1 ≤ e ∧ e ≤ n ∧ SplitsInto required width height e ∧ ∀ k, e < k → k ≤ n → ¬ SplitsInto required width height k := by
  induction n with
  | zero => cases h
  | succ n ih =>
    unfold maxBlockFrom at h
    split at h
    next splits =>
      obtain ⟨hw, hh, enough⟩ := splits
      cases h
      exact ⟨by omega, le_rfl, ⟨hw, hh, enough⟩, by omega⟩
    next fails =>
      obtain ⟨pos, le, splits, greatest⟩ := ih h
      refine ⟨pos, by omega, splits, fun k hk hkn hsplits => ?_⟩
      rcases Nat.le_succ_iff.mp hkn with smaller | rfl
      · exact greatest k hk smaller hsplits
      · exact fails ⟨hsplits.tilesWidth, hsplits.tilesHeight, hsplits.enough⟩

/-- The loop answers nothing only when no candidate splits the frame. -/
theorem maxBlockFrom_none {required width height n : Nat} (h : maxBlockFrom required width height n = none) :
    ∀ k, 1 ≤ k → k ≤ n → ¬ SplitsInto required width height k := by
  induction n with
  | zero => omega
  | succ n ih =>
    unfold maxBlockFrom at h
    split at h
    next => cases h
    next fails =>
      intro k hk hkn hsplits
      rcases Nat.le_succ_iff.mp hkn with smaller | rfl
      · exact ih h k hk smaller hsplits
      · exact fails ⟨hsplits.tilesWidth, hsplits.tilesHeight, hsplits.enough⟩

/-- `max_block_size` is the loop from the greatest common divisor down, for sides of at least 1 (R204). -/
theorem maxBlockSize_eq_ok {required width height e : Nat} : maxBlockSize required width height = .ok e ↔
    (1 ≤ width ∧ 1 ≤ height) ∧ maxBlockFrom required width height (width.gcd height) = some e := by
  unfold maxBlockSize
  rcases maxBlockFrom required width height (width.gcd height) with _ | e' <;> simp

/-- With no more pixels than required even single pixels are too few blocks (R206). -/
theorem maxBlockSize_of_few {required width height : Nat} (few : width * height ≤ required) :
    maxBlockSize required width height = .error .incompatibleDimensions := by
  refine require_bind_error (.inr ?_)
  rcases search : maxBlockFrom required width height (width.gcd height) with _ | e
  · rfl
  · obtain ⟨-, -, splits, -⟩ := maxBlockFrom_some search
    exact absurd (splits.enough.trans_le (Nat.div_le_self _ _)) (Nat.not_lt.mpr few)

/-- With more pixels than required single pixels are enough blocks, so the loop answers (R206). -/
theorem exists_maxBlockSize {required width height : Nat} (many : required < width * height) :
    ∃ e, maxBlockSize required width height = .ok e := by
  have hw : 1 ≤ width := Nat.pos_of_mul_pos_right (Nat.zero_lt_of_lt many)
  have hh : 1 ≤ height := Nat.pos_of_mul_pos_left (Nat.zero_lt_of_lt many)
  rcases search : maxBlockFrom required width height (width.gcd height) with _ | e
  · have single : SplitsInto required width height 1 := ⟨Nat.mod_one _, Nat.mod_one _, by simpa using many⟩
    exact absurd single (maxBlockFrom_none search 1 le_rfl (Nat.gcd_pos_of_pos_left _ hw))
  · exact ⟨e, maxBlockSize_eq_ok.mpr ⟨⟨hw, hh⟩, search⟩⟩

/-- The answer is at most a divisor of the width. -/
theorem maxBlockSize_le_width {required width height e : Nat} (h : maxBlockSize required width height = .ok e) : e ≤ width := by
  obtain ⟨⟨hw, -⟩, search⟩ := maxBlockSize_eq_ok.mp h
  obtain ⟨-, le, -⟩ := maxBlockFrom_some search
  exact le.trans (Nat.gcd_le_left _ hw)

theorem State.Sized.maxBlockSize_lt {s : State} (sized : s.Sized) {required w h e : Nat} (width : s.srf.w = some w)
    (answer : maxBlockSize required w h = .ok e) : e < 2 ^ s.params.xlen :=
  sized.paramsValid.dim_lt_xlen ((maxBlockSize_le_width answer).trans_lt (sized.wFits w width))

theorem exec_chunkMaxblk_of_set {s : State} {required w h : Nat} (width : s.srf.w = some w) (height : s.srf.h = some h) :
    exec (.chunkMaxblk required) s = runCommand s (silent (maxBlockSize required w h >>= storeR0 s)) := by
  rw [exec, execChunkMaxblk, width, height]
  rfl

/-- Settles O40: the loop of R204 answers the greatest block size that splits the frame, and single pixels do exactly when the frame has
more of them than required. -/
theorem chunkMaxblkFindsTheLargest : Obligations.ChunkMaxblkFindsTheLargest := by
  intro required s unhalted
  refine ⟨packC1_eq_packet _ _ _, fun unset => runCommand_silent_error unhalted ?_, fun w h width height => ?_⟩
  · exact readField_bind_unset (unset.imp_right fun unset _ => readField_bind_unset (.inl unset))
  · rw [exec_chunkMaxblk_of_set width height]
    refine ⟨fun few => ?_, fun sized many => ?_⟩
    · rw [maxBlockSize_of_few few]
      exact runCommand_silent_error unhalted rfl
    · obtain ⟨e, answer⟩ := exists_maxBlockSize many
      obtain ⟨-, search⟩ := maxBlockSize_eq_ok.mp answer
      obtain ⟨pos, le, ⟨tilesW, tilesH, enough⟩, greatest⟩ := maxBlockFrom_some search
      have fits : e < 2 ^ s.params.xlen := sized.maxBlockSize_lt width answer
      have gcdPos : 0 < w.gcd h := Nat.lt_of_lt_of_le pos le
      refine ⟨e, pos, le, tilesW, tilesH, enough, (area_div_eq_blocks tilesW tilesH).symm ▸ enough, fun k hk hkw hkh => ?_, ?_⟩
      · have common : k ≤ w.gcd h :=
          Nat.le_of_dvd gcdPos (Nat.dvd_gcd (Nat.dvd_of_mod_eq_zero hkw) (Nat.dvd_of_mod_eq_zero hkh))
        exact Nat.not_lt.mp fun enough => greatest k hk common ⟨hkw, hkh, enough⟩
      · rw [answer, work_ok_bind]
        exact runCommand_silent_ok unhalted ((storeR0_ok _ _ _).mpr ⟨fits, rfl⟩)

/-! ## `CHUNK.DERIVE` (R207, R208) -/

/-- A frame holds at least a byte, so there are no more frames than bytes (R207). -/
theorem totalFrames_le {fs b : Nat} (hb : 1 ≤ b) : totalFrames fs b ≤ fs := by
  rw [totalFrames, Nat.div_le_iff_le_mul_add_pred hb]
  have := Nat.le_mul_of_pos_left fs hb
  omega

/-- No byte of the frames is unused exactly when they divide the file (R207). -/
theorem unusedBytes_eq_zero_iff {fs b : Nat} (hb : 1 ≤ b) : unusedBytes fs b = 0 ↔ fs % b = 0 := by
  obtain ⟨total, unused⟩ := unusedBytes_spec (fs := fs) hb
  constructor
  · intro none
    rw [none, Nat.zero_add] at total
    rw [total, Nat.mul_mod_right]
  · intro divides
    have multiple : b ∣ unusedBytes fs b :=
      (Nat.dvd_add_iff_left (Nat.dvd_of_mod_eq_zero divides)).mpr (total ▸ Nat.dvd_mul_right b _)
    exact Nat.eq_zero_of_dvd_of_lt multiple unused

/-- Both results of R207 fit their registers, as the file's length and the frame's do (R8). -/
theorem State.Sized.derived_lt {s : State} (sized : s.Sized) {fs b : Nat} (fsize : s.srf.fsize = some fs) (bpf : s.srf.bpf = some b)
    (hb : 1 ≤ b) : totalFrames fs b < 2 ^ s.params.xlen ∧ unusedBytes fs b < 2 ^ s.params.xlen :=
  ⟨(totalFrames_le hb).trans_lt (sized.fsizeFits fs fsize), (unusedBytes_spec hb).2.trans (sized.bpfFits b bpf)⟩

/-- Settles O41: the seal, the reads in the order of R208, and the two results of R207, which fit their registers. -/
theorem chunkDeriveSealsTheSession : Obligations.ChunkDeriveSealsTheSession := by
  refine ⟨fun cfg => packC0_eq_packet cfg _, fun s unhalted sealed => ?_, fun s unhalted unsealed unset => ?_, ?_⟩
  · exact runCommand_silent_error unhalted (require_bind_error (.inl (by simp [sealed])))
  · refine runCommand_silent_error unhalted ?_
    rw [requireUnsealed, require_bind_of unsealed]
    exact readField_bind_unset <| unset.imp_right fun unset _ => readField_bind_unset <| unset.imp_right fun unset _ =>
      readField_bind_unset <| unset.imp_right fun unset _ => readField_bind_unset <| unset.imp_right fun unset _ =>
      readField_bind_unset <| unset.imp_right fun unset _ => readField_bind_unset <| unset.imp_right fun unset _ =>
      readField_bind_unset <| unset.imp_right fun unset _ => readField_bind_unset (.inl unset)
  · intro s m e w h c n fs b unhalted sized unsealed mode psize width height checksum fname fsize bpf hb
    obtain ⟨total, unused⟩ := unusedBytes_spec (fs := fs) hb
    obtain ⟨fitsT, fitsU⟩ := sized.derived_lt fsize bpf hb
    refine ⟨totalFrames fs b, unusedBytes fs b, rfl, total, unused, unusedBytes_eq_zero_iff hb, ?_⟩
    refine runCommand_silent_ok
      (t := (s.setSrf { s.srf with tframes := some (totalFrames fs b), unused := some (unusedBytes fs b) }).seal.setR0
        (totalFrames fs b)) unhalted ?_
    rw [requireUnsealed, require_bind_of unsealed, readField_bind_of mode, readField_bind_of psize, readField_bind_of width,
      readField_bind_of height, readField_bind_of checksum, readField_bind_of fname, readField_bind_of fsize, readField_bind_of bpf,
      (toWord_ok _ _ _).mpr ⟨fitsT, rfl⟩, work_ok_bind, (toWord_ok _ _ _).mpr ⟨fitsU, rfl⟩]
    rfl

/-! ## `PAGE.BUILD` (R210, R211) -/

theorem buildPage_length {y : Bytes} {bpf : Nat} (h : y.length ≤ bpf) : (buildPage y bpf).length = 8 * bpf := by
  rw [buildPage, List.length_append, bytesToBits_length, zeros_length]
  omega

/-- The chunk's bits stand in front of the padding (R210). -/
theorem slice_buildPage {y : Bytes} {bpf i j : Nat} (h : j ≤ 8 * y.length) : slice (buildPage y bpf) i j = slice (bytesToBits y) i j :=
  slice_append_left (by rwa [bytesToBits_length])

theorem slice_buildPage_padding {y : Bytes} {bpf : Nat} (h : y.length ≤ bpf) :
    slice (buildPage y bpf) (8 * y.length) (8 * bpf) = zeros (8 * (bpf - y.length)) :=
  slice_append_right (bytesToBits_length y) (by rw [zeros_length]; omega)

theorem exec_pageBuild_of_set {s : State} {b : Nat} (bpf : s.srf.bpf = some b) : exec .pageBuild s = runCommand s (silent do
    require (s.yb.length ≤ b) .capacityExceeded
    storeBB s (buildPage s.yb b)) := by
  rw [exec, execPageBuild, bpf]
  rfl

/-- Settles O42: the checks of R211 in order, then `build_page`, read byte by byte. -/
theorem pageBuildPadsThePage : Obligations.PageBuildPadsThePage := by
  refine ⟨fun cfg => packC0_eq_packet cfg _, fun s unhalted => ⟨fun unset => ?_, fun b bpf => ?_⟩⟩
  · exact runCommand_silent_error unhalted (readField_bind_unset (.inl unset))
  · rw [exec_pageBuild_of_set bpf]
    refine ⟨fun long => ?_, fun short overflow => ?_, fun short fits => ?_⟩
    · exact runCommand_silent_error unhalted (require_bind_error (.inl (Nat.not_le_of_lt long)))
    · rw [require_bind_of short]
      exact runCommand_silent_error unhalted ((storeBB_error _ _ _).mpr ⟨buildPage_length short ▸ overflow, rfl⟩)
    · rw [require_bind_of short]
      refine ⟨buildPage s.yb b, buildPage_length short, fun k hk => ?_, slice_buildPage_padding short,
        runCommand_silent_ok unhalted ((storeBB_ok _ _ _).mpr ⟨buildPage_length short ▸ fits, rfl⟩)⟩
      rw [slice_buildPage (by omega)]
      exact bitsVal_slice_bytesToBits hk

/-! ## `PAGE.UNPACK` (R212, R213) -/

/-- The final frame keeps what is used of it (R212). -/
theorem keptBytes_final {bpf tf un i keep : Nat} (final : i + 1 = tf) (used : keep + un = bpf) : keptBytes bpf tf un i = .ok keep := by
  rw [keptBytes, if_pos (by omega), if_pos (by omega), ← used, Nat.add_sub_cancel]

theorem keptBytes_of_before {bpf tf un i : Nat} (before : i + 1 < tf) : keptBytes bpf tf un i = .ok bpf := by
  rw [keptBytes, if_neg (by omega)]

theorem keptBytes_underflow {bpf tf un i : Nat} (final : i + 1 = tf) (trimmed : bpf < un) :
    keptBytes bpf tf un i = .error .trimUnderflow := by
  rw [keptBytes, if_pos (by omega), if_neg (by omega)]

/-- A front of the buffer that is a whole number of bytes is as many bytes. -/
theorem pagesToBytes_take_length {b : Bits} {keep : Nat} (h : 8 * keep ≤ b.length) :
    (pagesToBytes (b.take (8 * keep))).length = keep := by
  rw [pagesToBytes_length, List.length_take, Nat.min_eq_left h, Nat.mul_div_cancel_left keep (by decide)]

/-- Its bytes stand in the buffer where they stood in the front (R137). -/
theorem pagesToBytes_take_getD {b : Bits} {keep k : Nat} (h : 8 * keep ≤ b.length) (hk : k < keep) :
    ((pagesToBytes (b.take (8 * keep))).getD k 0).toNat = bitsVal (slice b (8 * k) (8 * k + 8)) := by
  have front : slice (b.take (8 * keep)) (8 * k) (8 * k + 8) = slice b (8 * k) (8 * k + 8) := by
    simpa [slice] using slice_slice b (i := 0) (j := 8 * keep) (k := 8 * k) (l := 8 * k + 8) (by omega)
  rw [pagesToBytes_getD (by rwa [pagesToBytes_take_length h]), front]

/-- The work of `PAGE.UNPACK` behind its reads: the checks of R213 in their order, then the writes. -/
def unpackPage (b tf un i : Nat) (s : State) : Work State := do
  require (i < tf) .operandRange
  require (s.bb.length = 8 * b) .frameLengthMismatch
  let keep ← keptBytes b tf un i
  let r ← toWord s.params (frameOffset b i)
  let t ← storeYB s (pagesToBytes (s.bb.take (8 * keep)))
  pure (t.setR0 r)

theorem exec_pageUnpack_of_set {s : State} {i b tf un : Nat} (bpf : s.srf.bpf = some b) (tframes : s.srf.tframes = some tf)
    (unused : s.srf.unused = some un) : exec (.pageUnpack i) s = runCommand s (silent (unpackPage b tf un i s)) := by
  rw [exec, execPageUnpack, bpf, tframes, unused]
  rfl

/-- Settles O43: the reads, the checks of R213 in their order, and the bytes that the frame keeps. -/
theorem pageUnpackTrimsAndLocates : Obligations.PageUnpackTrimsAndLocates := by
  intro i s unhalted
  refine ⟨packC1_eq_packet _ _ _, fun unset => runCommand_silent_error unhalted ?_, fun b tf un bpf tframes unused => ?_⟩
  · exact readField_bind_unset <| unset.imp_right fun unset _ => readField_bind_unset <| unset.imp_right fun unset _ =>
      readField_bind_unset (.inl unset)
  · rw [exec_pageUnpack_of_set bpf tframes unused]
    refine ⟨fun past => ?_, fun inside mismatch => ?_, fun inside len => ?_⟩
    · exact runCommand_silent_error unhalted (require_bind_error (.inl (Nat.not_lt.mpr past)))
    · refine runCommand_silent_error unhalted ?_
      rw [unpackPage, require_bind_of inside]
      exact require_bind_error (.inl mismatch)
    · rw [unpackPage, require_bind_of inside, require_bind_of len]
      refine ⟨fun final trimmed => ?_, fun keep frame => ?_⟩
      · rw [keptBytes_underflow final trimmed]
        exact runCommand_silent_error unhalted rfl
      · have kept : keptBytes b tf un i = .ok keep := by
          rcases frame with ⟨before, rfl⟩ | ⟨final, used⟩
          · exact keptBytes_of_before before
          · exact keptBytes_final final used
        have within : 8 * keep ≤ s.bb.length := by omega
        rw [kept, work_ok_bind, frameOffset]
        refine ⟨fun overflow => ?_, fun fits small => ?_⟩
        · rw [(toWord_error _ _ _).mpr ⟨Nat.not_lt.mpr overflow, rfl⟩]
          exact runCommand_silent_error unhalted rfl
        · have fitsYB : fitsBuffer s.params (pagesToBytes (s.bb.take (8 * keep))).length = true :=
            fitsBuffer_mono (by rw [pagesToBytes_take_length within]; omega) fits
          refine ⟨pagesToBytes (s.bb.take (8 * keep)), pagesToBytes_take_length within,
            fun k hk => pagesToBytes_take_getD within hk, ?_⟩
          rw [(toWord_ok _ _ _).mpr ⟨small, rfl⟩, work_ok_bind, (storeYB_ok _ _ _).mpr ⟨fitsYB, rfl⟩]
          exact runCommand_silent_ok unhalted rfl

/-! ## A file in frames (R212, R214) -/

/-- The frames are those that begin inside the file (R207, R212). -/
theorem lt_totalFrames_iff {fs b i : Nat} (hb : 1 ≤ b) : i < totalFrames fs b ↔ frameOffset b i < fs := by
  rw [totalFrames, frameOffset, ← Nat.succ_le_iff, Nat.le_div_iff_mul_le hb, Nat.succ_mul]
  omega

/-- A frame of a file keeps a whole frame's bytes, or what is left of the file (R212). -/
theorem keptBytes_of_file {fs b i : Nat} (hb : 1 ≤ b) (hi : i < totalFrames fs b) :
    keptBytes b (totalFrames fs b) (unusedBytes fs b) i = .ok (min b (fs - frameOffset b i)) := by
  have next : frameOffset b (i + 1) = frameOffset b i + b := Nat.succ_mul i b
  rcases Nat.lt_or_eq_of_le (Nat.succ_le_of_lt hi) with before | final
  · have later : frameOffset b (i + 1) < fs := (lt_totalFrames_iff hb).mp before
    rw [keptBytes_of_before before, Nat.min_eq_left (by omega)]
  · obtain ⟨total, unused⟩ := unusedBytes_spec (fs := fs) hb
    have stop : b * totalFrames fs b = frameOffset b i + b := by rw [← final, Nat.mul_comm, ← next, frameOffset]
    exact keptBytes_final final (by omega)

/-- A chunk comes back out of the front of its page (R210, R213). -/
theorem pagesToBytes_take_buildPage (y : Bytes) (bpf : Nat) : pagesToBytes ((buildPage y bpf).take (8 * y.length)) = y := by
  rw [buildPage, List.take_left' (bytesToBits_length y), pagesToBytes_bytesToBits]

/-- The first `n` chunks of a file joined are its first `n * bpf` bytes. -/
theorem flatMap_chunks (file : Bytes) (bpf n : Nat) :
    (List.range n).flatMap (fun i => (file.drop (i * bpf)).take bpf) = file.take (n * bpf) := by
  induction n with
  | zero => simp
  | succ n ih => rw [List.range_succ, List.flatMap_append, List.flatMap_singleton, ih, Nat.succ_mul, List.take_add]

/-- Settles O44: frame `i` keeps `min bpf (fs - i*bpf)` bytes from its offset on, and byte `p` is in frame `p div bpf`. -/
theorem chunkingRoundTrip : Obligations.ChunkingRoundTrip := by
  intro file bpf hb tf un chunk
  have frames {i : Nat} : i < tf ↔ frameOffset bpf i < file.length := lt_totalFrames_iff hb
  have chunkLength (i : Nat) : (chunk i).length = min bpf (file.length - frameOffset bpf i) := by
    rw [List.length_take, List.length_drop, frameOffset]
  refine ⟨fun i hi => ⟨_, keptBytes_of_file hb hi, chunkLength i, ?_, ?_, fun j hij => ?_⟩, fun p hp => ?_, ?_⟩
  · rw [← chunkLength]
    exact pagesToBytes_take_buildPage _ _
  · have begins := frames.mp hi
    omega
  · have next : frameOffset bpf (i + 1) = frameOffset bpf i + bpf := Nat.succ_mul i bpf
    have mono : frameOffset bpf (i + 1) ≤ frameOffset bpf j := Nat.mul_le_mul_right bpf hij
    omega
  · have begins : frameOffset bpf (p / bpf) ≤ p := Nat.div_mul_le_self p bpf
    have ends : p < frameOffset bpf (p / bpf) + bpf := Nat.lt_div_mul_add hb
    have inside : p / bpf < tf := frames.mpr (begins.trans_lt hp)
    exact ⟨p / bpf, _, inside, keptBytes_of_file hb inside, begins, by omega⟩
  · have whole : file.length ≤ tf * bpf := by
      have past : ¬ frameOffset bpf tf < file.length := fun inside => (frames.mpr inside).false
      exact Nat.not_lt.mp past
    rw [flatMap_chunks, List.take_of_length_le whole]

/-! ## No overflow at the defaults (R215) -/

/-- Work that never meets `ResultOverflow`. -/
def NeverOverflows {α : Type} (w : Work α) : Prop := w ≠ .error .resultOverflow

namespace NeverOverflows

variable {α β : Type} {s : State}

/-- Work in sequence: the second part is looked at only for what the first has answered. -/
theorem bind {x : Work α} {f : α → Work β} (hx : NeverOverflows x) (hf : ∀ a, x = .ok a → NeverOverflows (f a)) :
    NeverOverflows (x >>= f) := fun overflow => by
  rcases (work_bind_error x f _).mp overflow with overflow | ⟨a, ha, overflow⟩
  · exact hx overflow
  · exact hf a ha overflow

theorem done (a : α) : NeverOverflows (pure a) := work_pure_error a _

/-- A check that names another cause. -/
theorem requires {c : Prop} [Decidable c] {e : Cause} (he : e ≠ .resultOverflow := by decide) : NeverOverflows (require c e) :=
  fun overflow => he ((require_error c e _).mp overflow).2

theorem unsealed : NeverOverflows (requireUnsealed s) := requires

theorem reads {o : Option α} : NeverOverflows (readField o) := by simp [NeverOverflows]

theorem readsPX : NeverOverflows (readPX s) := by simp [NeverOverflows]

theorem selects {o : Option α} : NeverOverflows (selector o) := by simp [NeverOverflows]

theorem implements (m : VideoMode) : NeverOverflows m.density := by
  cases m <;> simp [NeverOverflows, VideoMode.density]

theorem recognizes (mode : Nat) : NeverOverflows (modeOperand mode) := by
  unfold modeOperand
  rcases known : recognizeMode mode with c | m
  · rintro ⟨⟩; simp at known
  · exact implements m

theorem setsUpRaster {mode edge : Nat} : NeverOverflows (rasterSetup mode edge s) :=
  bind (by simp [NeverOverflows]) fun _ _ => (recognizes mode).bind fun _ _ => reads.bind fun _ _ => reads.bind fun _ _ =>
    bind (by simp [NeverOverflows]) fun _ _ => done _

theorem countsBytes (d : Density) (edge width height : Nat) : NeverOverflows (bytesPerFrame d edge width height) :=
  (requires).bind fun _ _ => (requires).bind fun _ _ => (requires).bind fun _ _ => done _

theorem findsBlock (required width height : Nat) : NeverOverflows (maxBlockSize required width height) :=
  (requires).bind fun _ _ => by split <;> simp [NeverOverflows]

theorem trims (bpf tf un i : Nat) : NeverOverflows (keptBytes bpf tf un i) := by
  unfold keptBytes; split_ifs <;> simp [NeverOverflows]

theorem parses (b : Bits) : NeverOverflows (headerParse b) := by simp [NeverOverflows, headerParse]

theorem writesScalar (r : Srf) (cfg : Params) (field : HostField) (v : Nat) : NeverOverflows (r.setScalar cfg field v) := by
  cases field <;> simp [NeverOverflows, Srf.setScalar]

theorem fitsWord {cfg : Params} {v : Nat} (fits : v < 2 ^ cfg.xlen) : NeverOverflows (toWord cfg v) := fun overflow =>
  ((toWord_error cfg v _).mp overflow).1 fits

theorem storesR0 {v : Nat} (fits : v < 2 ^ s.params.xlen) : NeverOverflows (storeR0 s v) := fun overflow =>
  ((storeR0_error s v _).mp overflow).1 fits

theorem storesBB (unbounded : s.params.bufMax = none) (b : Bits) : NeverOverflows (storeBB s b) := by
  simp [NeverOverflows, fitsBuffer_of_unbounded unbounded]

theorem storesYB (unbounded : s.params.bufMax = none) (y : Bytes) : NeverOverflows (storeYB s y) := by
  simp [NeverOverflows, fitsBuffer_of_unbounded unbounded]

end NeverOverflows

/-! ### The bounds of the results -/

theorem Density.bpb_le (d : Density) : d.bpb ≤ 3 := by
  cases d <;> decide

/-- A block has at least a pixel, so a raster holds no more than three bits per pixel (R171, R172). -/
theorem Raster.capacity_lt {g : Raster} (hw : g.width < 2 ^ 16) (hh : g.height < 2 ^ 16) : g.capacity < 2 ^ 34 := by
  have area : g.width * g.height < 2 ^ 16 * 2 ^ 16 := Nat.mul_lt_mul'' hw hh
  calc g.capacity
    _ ≤ g.width * g.height * 3 :=
      Nat.mul_le_mul (Nat.mul_le_mul (Nat.div_le_self _ _) (Nat.div_le_self _ _)) g.density.bpb_le
    _ < 2 ^ 34 := by omega

/-- A frame holds no more than three bits per pixel, in bytes (R201). -/
theorem bytesPerFrame_lt {d : Density} {edge width height v : Nat} (hw : width < 2 ^ 16) (hh : height < 2 ^ 16)
    (h : bytesPerFrame d edge width height = .ok v) : v < 2 ^ 31 := by
  obtain ⟨-, -, -, rfl⟩ := bytesPerFrame_eq_ok.mp h
  have area : width * height < 2 ^ 16 * 2 ^ 16 := Nat.mul_lt_mul'' hw hh
  have bits : width * height * d.bpb / (edge * edge) ≤ width * height * 3 :=
    (Nat.div_le_self _ _).trans (Nat.mul_le_mul_left _ d.bpb_le)
  omega

theorem State.Sized.scalar_lt {s : State} (sized : s.Sized) {field : ScalarField} {v : Nat} (set : s.srf.scalar field = some v) :
    v < 2 ^ s.params.xlen := by
  have valid := sized.paramsValid
  cases field with
  | mode =>
    obtain ⟨m, -, rfl⟩ := Option.map_eq_some_iff.mp set
    have code : m.code < 2 ^ 32 := by cases m <;> decide
    exact valid.lt_xlen_of_lt code
  | psize => exact valid.dim_lt_xlen (sized.psizeFits v set)
  | w => exact valid.dim_lt_xlen (sized.wFits v set)
  | h => exact valid.dim_lt_xlen (sized.hFits v set)
  | fps => exact valid.dim_lt_xlen (sized.fpsFits v set)
  | fsize => exact sized.fsizeFits v set
  | bpf => exact sized.bpfFits v set
  | unused => exact sized.unusedFits v set
  | tframes => exact sized.tframesFits v set

section
variable {s : State} (inv : StateInv s) (xlen_eq : s.params.xlen = 64) (dimBits_eq : s.params.dimBits = 16)
include inv xlen_eq dimBits_eq

/-- Of the frames that a session counts each begins below `2^64`: inside the file when `CHUNK.DERIVE` has sealed it, and at a product of two
numbers of 32 bits when `HDR.PARSE` has (R37, R215). -/
theorem frameOffset_lt {i b tf : Nat} (bpf : s.srf.bpf = some b) (tframes : s.srf.tframes = some tf) (hi : i < tf) :
    frameOffset b i < 2 ^ 64 := by
  have sealed : s.sealed = true := inv.framesSealed (by simp [tframes])
  rcases inv.sealOrigin sealed with derived | parsed
  · obtain ⟨fs, b', tf', un, fsize, bpf', tframes', -, total, unused⟩ := derived
    obtain rfl : b = b' := Option.some.inj (bpf.symm.trans bpf')
    obtain rfl : tf = tf' := Option.some.inj (tframes.symm.trans tframes')
    have small : fs < 2 ^ 64 := xlen_eq ▸ inv.sized.fsizeFits fs fsize
    have stop : frameOffset b i + b ≤ b * tf := by
      rw [frameOffset, ← Nat.succ_mul, Nat.mul_comm b]
      exact Nat.mul_le_mul_right b hi
    omega
  · obtain ⟨-, -, -, -, -, tf', -, -, -, -, -, tframes', -, -, -, -, -, -, small⟩ := parsed
    obtain rfl : tf = tf' := Option.some.inj (tframes.symm.trans tframes')
    obtain ⟨-, m, d, e, w, h, -, -, -, width, height, bytes⟩ := inv.bpfSound b bpf
    have frame : b < 2 ^ 31 := bytesPerFrame_lt (dimBits_eq ▸ inv.sized.wFits w width) (dimBits_eq ▸ inv.sized.hFits h height) bytes
    calc frameOffset b i
      _ < 2 ^ 32 * 2 ^ 31 := Nat.mul_lt_mul'' (hi.trans small) frame
      _ < 2 ^ 64 := by decide

end

/-! ### Every command -/

/-- A result is the end of some work that never meets `ResultOverflow`. -/
def RunsWithoutOverflow (s : State) (r : Result) : Prop :=
  ∃ w, r = runCommand s w ∧ NeverOverflows w

theorem runsWithoutOverflow_silent {s : State} {w : Work State} (h : NeverOverflows w) :
    RunsWithoutOverflow s (runCommand s (silent w)) :=
  ⟨_, rfl, fun overflow => h ((silent_error w _).mp overflow)⟩

theorem runsWithoutOverflow_answer (s : State) (d : ResponseData) : RunsWithoutOverflow s (runCommand s (.ok (s, d))) :=
  ⟨_, rfl, .done (s, d)⟩

open NeverOverflows in
/-- Each command of R95: its checks name other causes, and every number that it writes is within `R0` and its field. -/
theorem exec_runsWithoutOverflow {s : State} (inv : StateInv s) (defaults : s.params = Params.defaults) (i : Instr) :
    RunsWithoutOverflow s (exec i s) := by
  have unbounded : s.params.bufMax = none := by rw [defaults]; rfl
  have xlen_eq : s.params.xlen = 64 := by rw [defaults]; rfl
  have dimBits_eq : s.params.dimBits = 16 := by rw [defaults]; rfl
  have fits {v : Nat} (h : v < 2 ^ 64) : v < 2 ^ s.params.xlen := xlen_eq.symm ▸ h
  have width {w : Nat} (h : s.srf.w = some w) : w < 2 ^ 16 := dimBits_eq ▸ inv.sized.wFits w h
  have height {h : Nat} (hh : s.srf.h = some h) : h < 2 ^ 16 := dimBits_eq ▸ inv.sized.hFits h hh
  cases i with
  | dec2bin value width =>
    exact runsWithoutOverflow_silent ((requires).bind fun _ _ => (requires).bind fun _ _ => (requires).bind fun _ _ =>
      storesBB unbounded _)
  | bin2dec =>
    exact runsWithoutOverflow_silent ((requires).bind fun _ _ => (requires).bind fun _ small => storesR0 ((require_ok _ _ _).mp small))
  | byte2bits v => exact runsWithoutOverflow_silent ((requires).bind fun _ _ => storesBB unbounded _)
  | bits2byte =>
    have byte : (bitsToByte s.bb).toNat < 2 ^ 64 := (bitsToByte s.bb).isLt.trans (by decide)
    exact runsWithoutOverflow_silent ((requires).bind fun _ _ => storesR0 (fits byte))
  | pages2bytes => exact runsWithoutOverflow_silent ((requires).bind fun _ _ => storesYB unbounded _)
  | bin2str => exact runsWithoutOverflow_silent ((requires).bind fun _ _ => storesYB unbounded _)
  | hdrGen =>
    refine runsWithoutOverflow_silent ?_
    iterate 6 refine reads.bind fun _ _ => ?_
    iterate 5 refine (requires).bind fun _ _ => ?_
    exact storesBB unbounded _
  | hdrParse =>
    exact runsWithoutOverflow_silent (unsealed.bind fun _ _ => (requires).bind fun _ _ => (parses _).bind fun _ _ => done _)
  | rasterCap mode edge =>
    refine runsWithoutOverflow_silent (setsUpRaster.bind fun g setup => storesR0 (fits ?_))
    obtain ⟨hw, hh⟩ := WorkEnds.setsUpRaster.completes g setup
    exact (Raster.capacity_lt (width hw) (height hh)).trans (by decide)
  | rasterEnc mode edge =>
    exact runsWithoutOverflow_silent (setsUpRaster.bind fun _ _ => (requires).bind fun _ _ => done _)
  | rasterDec mode edge =>
    exact runsWithoutOverflow_silent (setsUpRaster.bind fun _ _ => readsPX.bind fun _ _ => (requires).bind fun _ _ =>
      storesBB unbounded _)
  | chunkBpf =>
    refine runsWithoutOverflow_silent (reads.bind fun m _ => reads.bind fun e _ => reads.bind fun w hw => reads.bind fun h hh =>
      (implements m).bind fun d _ => (countsBytes d e w h).bind fun v bytes => (fitsWord (fits ?_)).bind fun _ _ => done _)
    exact (bytesPerFrame_lt (width ((readField_ok _ _).mp hw)) (height ((readField_ok _ _).mp hh)) bytes).trans (by decide)
  | chunkMaxblk required =>
    exact runsWithoutOverflow_silent (reads.bind fun w hw => reads.bind fun h _ => (findsBlock required w h).bind fun _ answer =>
      storesR0 (inv.sized.maxBlockSize_lt ((readField_ok _ _).mp hw) answer))
  | chunkDerive =>
    refine runsWithoutOverflow_silent (unsealed.bind fun _ _ => ?_)
    iterate 6 refine reads.bind fun _ _ => ?_
    refine reads.bind fun fs hfs => reads.bind fun b hb => ?_
    have bpf := (readField_ok _ _).mp hb
    obtain ⟨fitsT, fitsU⟩ := inv.sized.derived_lt ((readField_ok _ _).mp hfs) bpf (inv.bpfSound b bpf).1
    exact (fitsWord fitsT).bind fun _ _ => (fitsWord fitsU).bind fun _ _ => done _
  | pageBuild => exact runsWithoutOverflow_silent (reads.bind fun _ _ => (requires).bind fun _ _ => storesBB unbounded _)
  | pageUnpack k =>
    refine runsWithoutOverflow_silent (reads.bind fun b hb => reads.bind fun tf ht => reads.bind fun un _ =>
      (requires).bind fun _ inside => (requires).bind fun _ _ => (trims b tf un k).bind fun _ _ => (fitsWord (fits ?_)).bind fun _ _ =>
      (storesYB unbounded _).bind fun _ _ => done _)
    exact frameOffset_lt inv xlen_eq dimBits_eq ((readField_ok _ _).mp hb) ((readField_ok _ _).mp ht) ((require_ok _ _ _).mp inside)
  | sesSet f v =>
    exact runsWithoutOverflow_silent (selects.bind fun _ _ => unsealed.bind fun _ _ => (writesScalar _ _ _ _).bind fun _ _ => done _)
  | sesSets f =>
    exact runsWithoutOverflow_silent (selects.bind fun _ _ => unsealed.bind fun _ _ => (requires).bind fun _ _ => done _)
  | sesGet f =>
    exact runsWithoutOverflow_silent (selects.bind fun _ _ => reads.bind fun _ set =>
      storesR0 (inv.sized.scalar_lt ((readField_ok _ _).mp set)))
  | sesGets f => exact runsWithoutOverflow_silent (selects.bind fun _ _ => reads.bind fun _ _ => storesYB unbounded _)
  | ldBb n bits => exact runsWithoutOverflow_silent ((requires).bind fun _ _ => storesBB unbounded _)
  | stBb => exact runsWithoutOverflow_answer s _
  | ldYb n bytes => exact runsWithoutOverflow_silent ((requires).bind fun _ _ => storesYB unbounded _)
  | stYb => exact runsWithoutOverflow_answer s _
  | ldPx w h data => exact runsWithoutOverflow_silent ((requires).bind fun _ _ => (requires).bind fun _ _ => done _)
  | stPx => exact ⟨_, rfl, readsPX.bind fun _ _ => done _⟩

/-- A response tells a fault entry from a completion, so a command that ends in the fault entry of `c` has met `c` (R94, R300). -/
theorem work_eq_error_of_takeFault {s : State} {w : Work (State × ResponseData)} {c : Cause} (unhalted : s.halt = false)
    (h : runCommand s w = .next (s.takeFault c)) : w = .error c := by
  rcases w with c' | ⟨u, d⟩
  · have same := (runCommand_error s _ c' unhalted rfl).symm.trans h
    injection same with same
    exact congrArg Except.error (congrArg State.fault same)
  · have same := (runCommand_ok s u _ d unhalted rfl).symm.trans h
    injection same with same
    have answers := congrArg State.response same
    simp at answers

/-- Settles O45: a completed command leaves `FAULT` at code 0, and one that faults does so with another cause. -/
theorem noResultOverflow : Obligations.NoResultOverflow := by
  intro i s t defaults inv unhalted ht
  obtain ⟨w, hw, never⟩ := exec_runsWithoutOverflow inv defaults i
  have noFault : s.fault = .noFault := by simpa [unhalted] using inv.haltWithFault
  rcases exec_next ht with ⟨halted, -⟩ | ⟨-, u, d, written, rfl⟩ | ⟨-, c, rfl⟩
  · exact absurd halted (by simp [unhalted])
  · rw [State.completed_fault, written.fault, noFault]
    decide
  · rw [State.takeFault_fault]
    rintro rfl
    exact never (work_eq_error_of_takeFault unhalted (hw.symm.trans ht))

end Sys2Proof.Machine
end

section
/-! PROOFS. The statements of spec file 44_host_interface.md. The transfer layout of R63, read from a frame and from its bytes alike
(`Frame.pixel_of_transfer`); which selectors name a field and what each write of `SES.SET` leaves in the session (R30, R231). A command of this
file is then its selector and its checks in order, and its one write or the buffer that it answers. -/

namespace Sys2Proof.Machine

/-! ## The transfer layout (R63) -/

theorem Frame.transfer_length (f : Frame) : f.transfer.length = f.pixels.length * 3 := by
  simp [Frame.transfer]

/-- Reading a frame's transfer bytes gives its pixels back. -/
theorem Frame.pixelsOfBytes_transfer (f : Frame) : pixelsOfBytes f.transfer = f.pixels := by
  rw [Frame.transfer]
  induction f.pixels with
  | nil => rfl
  | cons p pixels ih => exact congrArg (p :: ·) ih

/-- Pixel `k` is bytes `3k .. 3k+2`: red, green, blue. -/
theorem pixelsOfBytes_getD {data : Bytes} {k : Nat} (hk : k < (pixelsOfBytes data).length) :
    (pixelsOfBytes data).getD k black = { r := data.getD (k * 3) 0, g := data.getD (k * 3 + 1) 0, b := data.getD (k * 3 + 2) 0 } := by
  induction data using pixelsOfBytes.induct generalizing k with
  | case1 r g b rest ih =>
    cases k with
    | zero => rfl
    | succ k =>
      rw [pixelsOfBytes, List.getD_cons_succ, ih (Nat.lt_of_succ_lt_succ hk), Nat.succ_mul]
      rfl
  | case2 data short => simp [pixelsOfBytes] at hk

/-- A frame whose pixels are those of transfer bytes `data` has byte `(y*w + x)*3 + c` as channel `c` of pixel `(x, y)`. -/
theorem Frame.pixel_of_transfer {f : Frame} {data : Bytes} (whole : f.pixels.length = f.w * f.h)
    (pixels : pixelsOfBytes data = f.pixels) {x y : Nat} (hx : x < f.w) (hy : y < f.h) :
    f.pixel x y = { r := data.getD ((y * f.w + x) * 3) 0, g := data.getD ((y * f.w + x) * 3 + 1) 0
                    b := data.getD ((y * f.w + x) * 3 + 2) 0 } := by
  have inside := (block_offset_lt_and_div hy hx).1
  rw [Nat.mul_comm f.h, ← whole, ← pixels] at inside
  rw [Frame.pixel, ← pixels, pixelsOfBytes_getD inside]

/-! ## The packets of CD and CP, field by field (R92) -/

theorem packCD_eq_packet (cfg : Params) (cmd : Byte) (n : Nat) (data : Bits) : packCD cfg cmd n data = packet cfg cmd.toNat [n] data := by
  simp [packCD, packet, byteToBits, wordBits]

theorem packCP_eq_packet (cfg : Params) (cmd : Byte) (w h : Nat) (data : Bytes) :
    packCP cfg cmd w h data = packet cfg cmd.toNat [w, h] (bytesToBits data) := by
  simp [packCP, packet, byteToBits, wordBits]

/-! ## `LD.PX` and `ST.PX` (R240, R241) -/

/-- Settles O51: the checks of R240 in order; the frame that is stored has its pixels from the data. -/
theorem ldPxLoadsTheFrame : Obligations.LdPxLoadsTheFrame := by
  intro w h data s unhalted
  refine ⟨packCP_eq_packet _ _ _ _ _, fun bad => ?_, fun width height len => ?_⟩
  · have failing : ¬ (w < 2 ^ s.params.dimBits ∧ h < 2 ^ s.params.dimBits) ∨ data.length ≠ w * h * 3 := by omega
    exact runCommand_silent_error unhalted
      (require_bind_error (failing.imp_right fun count => require_bind_error (.inl count)))
  · let f : Frame := { w := w, h := h, pixels := pixelsOfBytes data }
    have whole : f.pixels.length = f.w * f.h := (Frame.wf_iff f).mp (loaded_wf w h data len)
    refine ⟨f, rfl, rfl, whole, fun x y hx hy => ?_, runCommand_silent_ok unhalted ?_⟩
    · rw [Frame.pixel_of_transfer whole rfl hx hy]
      exact ⟨rfl, rfl, rfl⟩
    · rw [require_bind_of ⟨width, height⟩, require_bind_of len]
      rfl

/-- Settles O52: the data of the response are the transfer bytes of the frame. -/
theorem stPxCarriesTheFrame : Obligations.StPxCarriesTheFrame := by
  refine ⟨fun cfg => packC0_eq_packet cfg _, fun s unhalted invalid => ?_, fun s f unhalted px whole => ?_⟩
  · exact runCommand_error s _ _ unhalted ((work_bind_error _ _ _).mpr (.inl ((readPX_error _ _).mpr ⟨invalid, rfl⟩)))
  · refine ⟨f.transfer, by rw [f.transfer_length, whole], fun x y hx hy => ?_, runCommand_ok s s _ _ unhalted ?_⟩
    · rw [Frame.pixel_of_transfer whole f.pixelsOfBytes_transfer hx hy]
      exact ⟨rfl, rfl, rfl⟩
    · rw [(readPX_ok s f).mpr px]
      rfl

/-! ## Field selectors (R30, R231 to R234) -/

theorem HostField.ofSelector_eq_none {f : Nat} (h : f ∉ [0, 1, 2, 3, 4, 7]) : HostField.ofSelector f = none := by
  unfold HostField.ofSelector
  split <;> simp_all

theorem StringField.ofSelector_eq_none {f : Nat} (h5 : f ≠ 5) (h6 : f ≠ 6) : StringField.ofSelector f = none := by
  unfold StringField.ofSelector
  split <;> simp_all

theorem ScalarField.ofSelector_eq_none {f : Nat} (h : f ∉ [0, 1, 2, 3, 4, 7, 8, 9, 10]) : ScalarField.ofSelector f = none := by
  unfold ScalarField.ofSelector
  split <;> simp_all

theorem ScalarField.exists_ofSelector {f : Nat} (h : f ∈ [0, 1, 2, 3, 4, 7, 8, 9, 10]) :
    ∃ field, ScalarField.ofSelector f = some field := by
  fin_cases h <;> exact ⟨_, rfl⟩

/-- `set(F)` says whether the field that the selector names holds a value (R34). -/
theorem Srf.isSet_eq_isSome_scalar (r : Srf) {f : Nat} {field : ScalarField} (h : ScalarField.ofSelector f = some field) :
    r.isSet f = (r.scalar field).isSome := by
  unfold ScalarField.ofSelector at h
  split at h <;> cases h
  case h_1 => exact Option.isSome_map.symm
  all_goals rfl

/-- A selector outside the command's class ends its work. -/
theorem selector_bind_none {α β : Type} {o : Option α} {f : α → Work β} (h : o = none) : (selector o >>= f) = .error .operandRange := by
  rw [h]
  rfl

/-- A selector of the command's class hands its field over to the work behind it. -/
theorem selector_bind_some {α β : Type} {o : Option α} {a : α} {f : α → Work β} (h : o = some a) : (selector o >>= f) = f a := by
  rw [h]
  rfl

/-! ## The writes of `SES.SET` (R35, R231) -/

section
variable (r : Srf) (cfg : Params) {v : Nat}

/-- A recognized code is written as its mode, and `BPF` is unset (R35). -/
theorem Srf.setScalar_mode (m : VideoMode) : r.setScalar cfg .mode m.code = .ok { r with mode := some m, bpf := none } := by
  rw [Srf.setScalar, (recognizeMode_ok _ m).mpr ((ofCode_some _ _).mpr rfl)]
  rfl

theorem Srf.setScalar_mode_unrecognized (h : 4 < v) : r.setScalar cfg .mode v = .error .unrecognizedVideoType := by
  obtain ⟨-, unknown, -⟩ := videoTypeLookup
  exact (work_bind_error _ _ _).mpr (.inl ((recognizeMode_error _ _).mpr ⟨unknown v h, rfl⟩))

/-- The `DIM_BITS`-wide fields each take a value within their width; `PSIZE`, `W` and `H` unset `BPF`, `FPS` does not (R35). -/
theorem Srf.setScalar_dim (small : v < 2 ^ cfg.dimBits) :
    r.setScalar cfg .psize v = .ok { r with psize := some v, bpf := none } ∧
    r.setScalar cfg .w v = .ok { r with w := some v, bpf := none } ∧
    r.setScalar cfg .h v = .ok { r with h := some v, bpf := none } ∧
    r.setScalar cfg .fps v = .ok { r with fps := some v } := by
  simp only [Srf.setScalar, (dimValue_ok cfg v v).mpr ⟨small, rfl⟩]
  exact ⟨rfl, rfl, rfl, rfl⟩

/-- They take no value beyond their width. -/
theorem Srf.setScalar_dim_large {f : Nat} (hf : f ∈ [1, 2, 3, 4]) (large : 2 ^ cfg.dimBits ≤ v) :
    ∃ field, HostField.ofSelector f = some field ∧ r.setScalar cfg field v = .error .operandRange := by
  have refused : dimValue cfg v = .error .operandRange := (dimValue_error _ _ _).mpr ⟨Nat.not_lt.mpr large, rfl⟩
  fin_cases hf <;> exact ⟨_, rfl, (work_bind_error _ _ _).mpr (.inl refused)⟩

end

/-! ## `SES.SET` and `SES.SETS` (R231, R232) -/

section
variable {s : State} {f : Nat} (unhalted : s.halt = false) (unsealed : s.sealed = false)
include unhalted unsealed

section
variable {v : Nat} {field : HostField} (named : HostField.ofSelector f = some field)
include named

theorem exec_sesSet_of_written {r : Srf} (written : s.srf.setScalar s.params field v = .ok r) :
    exec (.sesSet f v) s = .next (answersOk { s with srf := r } .absent) := by
  refine runCommand_silent_ok unhalted ?_
  rw [selector_bind_some named, requireUnsealed, require_bind_of unsealed, written]
  rfl

theorem exec_sesSet_of_refused {c : Cause} (refused : s.srf.setScalar s.params field v = .error c) :
    exec (.sesSet f v) s = .next (answersFault s c) := by
  refine runCommand_silent_error unhalted ?_
  rw [selector_bind_some named, requireUnsealed, require_bind_of unsealed, refused]
  rfl

end

theorem exec_sesSets_of_short {field : StringField} (named : StringField.ofSelector f = some field)
    (short : s.yb.length ≤ s.params.strMax) :
    exec (.sesSets f) s = .next (answersOk { s with srf := s.srf.setString field s.yb } .absent) := by
  refine runCommand_silent_ok unhalted ?_
  rw [selector_bind_some named, requireUnsealed, require_bind_of unsealed, require_bind_of short]
  rfl

end

/-- Settles O46: the selector, then the seal, then what the write of each field leaves. -/
theorem sesSetWritesTheField : Obligations.SesSetWritesTheField := by
  intro f v s unhalted
  refine ⟨packC2_eq_packet _ _ _ _, fun outside => ?_, fun inside closed => ?_, fun unsealed => ⟨?_, ?_, ?_, fun small => ?_, ?_⟩⟩
  · exact runCommand_silent_error unhalted (selector_bind_none (HostField.ofSelector_eq_none outside))
  · obtain ⟨refuses, -⟩ := sealedSessionRefusesWriters s unhalted closed
    exact refuses f v inside
  · rintro rfl unknown
    exact exec_sesSet_of_refused unhalted unsealed rfl (Srf.setScalar_mode_unrecognized _ _ unknown)
  · intro dim large
    obtain ⟨field, named, refused⟩ := s.srf.setScalar_dim_large s.params dim large
    exact exec_sesSet_of_refused unhalted unsealed named refused
  · rintro m rfl rfl
    exact exec_sesSet_of_written unhalted unsealed rfl (s.srf.setScalar_mode s.params m)
  · obtain ⟨psize, width, height, fps⟩ := s.srf.setScalar_dim s.params small
    refine ⟨?_, ?_, ?_, ?_⟩ <;> rintro rfl
    · exact exec_sesSet_of_written unhalted unsealed rfl psize
    · exact exec_sesSet_of_written unhalted unsealed rfl width
    · exact exec_sesSet_of_written unhalted unsealed rfl height
    · exact exec_sesSet_of_written unhalted unsealed rfl fps
  · rintro rfl
    exact exec_sesSet_of_written unhalted unsealed (field := .fsize) rfl rfl

/-- Settles O47: the selector, then the seal, then the length, then the write. -/
theorem sesSetsWritesTheString : Obligations.SesSetsWritesTheString := by
  intro f s unhalted
  refine ⟨packC1_eq_packet _ _ _, fun h5 h6 => ?_, fun inside => ⟨fun closed => ?_, fun unsealed long => ?_⟩, fun unsealed short => ?_⟩
  · exact runCommand_silent_error unhalted (selector_bind_none (StringField.ofSelector_eq_none h5 h6))
  · obtain ⟨-, refuses, -⟩ := sealedSessionRefusesWriters s unhalted closed
    exact refuses f (by simpa using inside)
  · obtain ⟨field, named⟩ : ∃ field, StringField.ofSelector f = some field := by
      rcases inside with rfl | rfl <;> exact ⟨_, rfl⟩
    refine runCommand_silent_error unhalted ?_
    rw [selector_bind_some named, requireUnsealed, require_bind_of unsealed]
    exact require_bind_error (.inl (Nat.not_le_of_lt long))
  · constructor <;> rintro rfl
    · exact exec_sesSets_of_short unhalted unsealed (field := .checksum) rfl short
    · exact exec_sesSets_of_short unhalted unsealed (field := .fname) rfl short

/-! ## `SES.GET` and `SES.GETS` (R233, R234) -/

/-- Settles O48: the selector, then the read of the field, whose value `R0` can hold. -/
theorem sesGetReadsTheField : Obligations.SesGetReadsTheField := by
  intro f s unhalted
  refine ⟨packC1_eq_packet _ _ _, fun outside => ?_, fun inside unset => ?_, fun r sized held => ?_⟩
  · exact runCommand_silent_error unhalted (selector_bind_none (ScalarField.ofSelector_eq_none outside))
  · obtain ⟨field, named⟩ := ScalarField.exists_ofSelector inside
    rw [s.srf.isSet_eq_isSome_scalar named, Option.isSome_eq_false_iff, Option.isNone_iff_eq_none] at unset
    refine runCommand_silent_error unhalted ?_
    rw [selector_bind_some named]
    exact readField_bind_unset (.inl unset)
  · obtain ⟨field, named, set⟩ : ∃ field, ScalarField.ofSelector f = some field ∧ s.srf.scalar field = some r := by
      rcases held with held | held | held | held | held | held | held | held | held
      all_goals
        obtain ⟨rfl, set⟩ := held
        exact ⟨_, rfl, set⟩
    refine runCommand_silent_ok unhalted ?_
    rw [selector_bind_some named, readField_bind_of set]
    exact (storeR0_ok _ _ _).mpr ⟨sized.scalar_lt set, rfl⟩

theorem State.Sized.string_fits {s : State} (sized : s.Sized) {field : StringField} {y : Bytes} (set : s.srf.string field = some y) :
    fitsBuffer s.params y.length = true := by
  cases field with
  | checksum => exact (sized.checksumFits y set).2
  | fname => exact (sized.fnameFits y set).2

/-- What either string field holds, the field that the selector names holds (R234). -/
theorem StringField.exists_ofSelector {f : Nat} {r : Srf} {o : Option Bytes} (h : (f = 5 ∧ r.checksum = o) ∨ (f = 6 ∧ r.fname = o)) :
    ∃ field, StringField.ofSelector f = some field ∧ r.string field = o := by
  rcases h with ⟨rfl, held⟩ | ⟨rfl, held⟩ <;> exact ⟨_, rfl, held⟩

/-- Settles O49: the selector, then the read of the field, whose string `YB` can hold. -/
theorem sesGetsReadsTheString : Obligations.SesGetsReadsTheString := by
  intro f s unhalted
  refine ⟨packC1_eq_packet _ _ _, fun h5 h6 => ?_, fun unset => ?_, fun y sized held => ?_⟩
  · exact runCommand_silent_error unhalted (selector_bind_none (StringField.ofSelector_eq_none h5 h6))
  · obtain ⟨field, named, unset⟩ := StringField.exists_ofSelector unset
    refine runCommand_silent_error unhalted ?_
    rw [selector_bind_some named]
    exact readField_bind_unset (.inl unset)
  · obtain ⟨field, named, set⟩ := StringField.exists_ofSelector held
    refine runCommand_silent_ok unhalted ?_
    rw [selector_bind_some named, readField_bind_of set]
    exact (storeYB_ok _ _ _).mpr ⟨sized.string_fits set, rfl⟩

/-! ## `LD.BB`, `ST.BB`, `LD.YB` and `ST.YB` (R236 to R239) -/

/-- Settles O50: a load is the check of its count and the checked write, which the same bound lets through; a store is its response. -/
theorem bufferLoadsAndStores : Obligations.BufferLoadsAndStores := by
  intro s unhalted
  refine ⟨?_, ?_, packC0_eq_packet _ _, runCommand_ok s s _ _ unhalted rfl, packC0_eq_packet _ _, runCommand_ok s s _ _ unhalted rfl⟩
  · rintro _ b rfl
    refine ⟨packCD_eq_packet _ _ _ _, fun long => ?_, fun fits => runCommand_silent_ok unhalted ?_⟩
    · exact runCommand_silent_error unhalted (require_bind_error (.inl (ne_true_of_eq_false long)))
    · rw [require_bind_of fits]
      exact (storeBB_ok _ _ _).mpr ⟨fits, rfl⟩
  · rintro _ y rfl
    refine ⟨packCD_eq_packet _ _ _ _, fun long => ?_, fun fits => runCommand_silent_ok unhalted ?_⟩
    · exact runCommand_silent_error unhalted (require_bind_error (.inl (ne_true_of_eq_false long)))
    · rw [require_bind_of fits]
      exact (storeYB_ok _ _ _).mpr ⟨fits, rfl⟩

end Sys2Proof.Machine
end

section
/-! PROOFS. The statement of spec file 45_sequences.md. A rule for each way the host puts a run together says how the part ends
(`RunEnds`): underway, or in an abort that leaves the CORE halted exactly when a response was `FAULT`. The encode run counts its frames
along the way, and the decode run needs the rules alone. -/

namespace Sys2Proof.Machine

/-! ## The host's side of a run (R276, R312) -/

/-- The run goes on: no fault has halted the CORE, and a sink that takes a number of frames has no more. -/
structure HostSide.Underway (takes : Option Nat) (h : HostSide) : Prop where
  unhalted : h.core.halt = false
  sunkFits : ∀ n, takes = some n → h.sunk.length ≤ n

/-- The run is aborted: the CORE is halted with the cause of a `FAULT` response (R276), or unhalted (R312), and a sink fails when it has
the frames it takes. -/
structure HostSide.AbortedBy (takes : Option Nat) (a : Abort) (h : HostSide) : Prop where
  faulted : ∀ c, a = .faulted c → h.core.halt = true ∧ h.core.fault = c
  unhalted : (∀ c, a ≠ .faulted c) → h.core.halt = false
  sunkFits : ∀ n, takes = some n → h.sunk.length ≤ n
  sinkFull : a = .sinkFailed → ∀ n, takes = some n → h.sunk.length = n

theorem HostSide.Underway.start {takes : Option Nat} {s : State} (unhalted : s.halt = false) :
    (HostSide.start s).Underway takes :=
  ⟨unhalted, fun _ _ => Nat.zero_le _⟩

/-- An abort without a `FAULT` response and without the sink's failure leaves everything as it is (R312). -/
theorem HostSide.Underway.abortedBy {takes : Option Nat} {h : HostSide} {a : Abort} (underway : h.Underway takes)
    (noFault : ∀ c, a ≠ .faulted c) (notSink : a ≠ .sinkFailed) : h.AbortedBy takes a :=
  ⟨fun c ha => absurd ha (noFault c), fun _ => underway.unhalted, underway.sunkFits, fun ha => absurd ha notSink⟩

/-! ## How a part of a run ends -/

/-- A completed command leaves `HALT` as it was (R300). -/
theorem exec_completed_halt {i : Instr} {s u : State} {d : ResponseData} (unhalted : s.halt = false)
    (completes : exec i s = .next (u.completed d)) : u.halt = false := by
  rcases exec_next completes with ⟨halted, -⟩ | ⟨-, t, e, written, same⟩ | ⟨-, c, same⟩
  · simp [unhalted] at halted
  · have halt : (u.completed d).halt = (t.completed e).halt := congrArg State.halt same
    exact halt.trans (written.halt.trans unhalted)
  · simpa using congrArg State.response same

/-- The end of a part of a run: the run goes on with a value that meets `post`, or it is aborted. -/
structure RunEnds {α : Type} (takes : Option Nat) (ending : HostSide × Except Abort α) (post : α → HostSide → Prop) : Prop where
  done : ∀ v, ending.2 = .ok v → ending.1.Underway takes ∧ post v ending.1
  aborted : ∀ a, ending.2 = .error a → ending.1.AbortedBy takes a

namespace RunEnds

variable {α β : Type} {takes : Option Nat} {h : HostSide}

theorem goesOn {v : α} {post : α → HostSide → Prop} (underway : h.Underway takes) (hv : post v h) : RunEnds takes (h, .ok v) post :=
  ⟨by rintro _ ⟨⟩; exact ⟨underway, hv⟩, nofun⟩

theorem stops {a : Abort} {post : α → HostSide → Prop} (left : h.AbortedBy takes a) : RunEnds takes (h, .error a) post :=
  ⟨nofun, by rintro _ ⟨⟩; exact left⟩

theorem mono {ending : HostSide × Except Abort α} {post post' : α → HostSide → Prop} (ends : RunEnds takes ending post)
    (weaker : ∀ v h', post v h' → post' v h') : RunEnds takes ending post' :=
  ⟨fun v hv => (ends.done v hv).imp_right (weaker v _), ends.aborted⟩

/-- However a part ends, a sink that takes a number of frames has no more. -/
theorem sunkFits {ending : HostSide × Except Abort α} {post : α → HostSide → Prop} (ends : RunEnds takes ending post) :
    ∀ n, takes = some n → ending.1.sunk.length ≤ n := by
  rcases hr : ending.2 with a | v
  · exact (ends.aborted a hr).sunkFits
  · exact (ends.done v hr).1.sunkFits

/-- The rest of a run begins where a part that was not aborted has ended. -/
theorem andThen {part : Run α} {rest : α → Run β} {mid : α → HostSide → Prop} {post : β → HostSide → Prop}
    (first : RunEnds takes (part h) mid) (second : ∀ v m, m.Underway takes → mid v m → RunEnds takes (rest v m) post) :
    RunEnds takes (part.andThen rest h) post := by
  rcases hp : part h with ⟨m, a | v⟩ <;> rw [hp] at first <;> simp only [Run.andThen, hp]
  · exact stops (first.aborted a rfl)
  · obtain ⟨underway, hv⟩ := first.done v rfl
    exact second v m underway hv

/-- Parts one after another: what each part carries from its number to the next, the list carries along its length. -/
theorem each {l : List α} {part : α → Run Unit} {inv : Nat → HostSide → Prop} {k : Nat}
    (step : ∀ x ∈ l, ∀ k m, m.Underway takes → inv k m → RunEnds takes (part x m) fun _ => inv (k + 1))
    (underway : h.Underway takes) (begins : inv k h) : RunEnds takes (Run.each l part h) fun _ => inv (k + l.length) := by
  induction l generalizing h k with
  | nil => exact goesOn underway begins
  | cons x l ih =>
    rw [List.length_cons, Nat.add_comm l.length, ← Nat.add_assoc]
    exact (step x List.mem_cons_self k h underway begins).andThen fun _ _ going next =>
      ih (fun y hy => step y (List.mem_cons_of_mem x hy)) going next

/-! ## Commands and the reads of their responses -/

/-- A command on an unhalted CORE completes, and the host has its response; or it faults, or it has no packet. -/
theorem of_issue {i : Instr} (underway : h.Underway takes) : RunEnds takes (Run.issue i h) fun _ h' =>
    ∃ (u : State) (d : ResponseData), exec i h.core = .next (u.completed d) ∧
      h' = { h with core := u.completed d, latest := (u.completed d).response } := by
  rcases Run.issue_cases i h with ⟨-, ends⟩ | ⟨u, d, -, completes, ends⟩ | ⟨c, -, -, ends⟩ | ⟨halted, -⟩
  · rw [ends]
    exact stops (underway.abortedBy nofun nofun)
  · rw [ends]
    exact goesOn ⟨exec_completed_halt underway.unhalted completes, underway.sunkFits⟩ ⟨u, d, completes, rfl⟩
  · rw [ends]
    exact stops ⟨by rintro _ ⟨⟩; exact ⟨rfl, rfl⟩, fun noFault => absurd rfl (noFault c), underway.sunkFits, nofun⟩
  · simp [underway.unhalted] at halted

theorem of_readR0 (underway : h.Underway takes) : RunEnds takes (Run.readR0 h) fun v h' => h.latestR0 = some v ∧ h' = h := by
  unfold Run.readR0
  split
  next v hv => exact goesOn underway ⟨hv, rfl⟩
  next => exact stops (underway.abortedBy nofun nofun)

theorem of_readBytes (underway : h.Underway takes) : RunEnds takes (Run.readBytes h) fun _ _ => True := by
  unfold Run.readBytes
  split
  · exact goesOn underway trivial
  · exact stops (underway.abortedBy nofun nofun)

end RunEnds

/-- The commands of a sequence that write a session field (R35). -/
def HostOp.writesSession : HostOp → Bool
  | .issue i => Machine.writesSession i
  | .rasterEncR0 _ | .rasterDecR0 _ => false

/-- What issuing commands leaves of the host's side: the frames sunk, and, with `quiet` commands, the session. -/
structure HostSide.Kept (quiet : Prop) (h h' : HostSide) : Prop where
  sunk : h'.sunk = h.sunk
  session : quiet → h'.core.srf = h.core.srf

theorem HostSide.Kept.trans {quiet : Prop} {h m h' : HostSide} (first : Kept quiet h m) (second : Kept quiet m h') : Kept quiet h h' :=
  ⟨second.sunk.trans first.sunk, fun q => (second.session q).trans (first.session q)⟩

namespace RunEnds

variable {takes : Option Nat} {h : HostSide}

/-- A command sinks no frame, and writes the session only when it is one of R35's writers. -/
theorem issue_kept {i : Instr} (underway : h.Underway takes) :
    RunEnds takes (Run.issue i h) fun _ => h.Kept (writesSession i = false) := by
  refine (of_issue underway).mono ?_
  rintro _ _ ⟨u, d, completes, rfl⟩
  obtain ⟨-, -, -, -, session, -⟩ := registersHaveTheirWriters i _ _ completes
  exact ⟨rfl, session⟩

theorem op_kept (o : HostOp) (underway : h.Underway takes) :
    RunEnds takes (Run.op o h) fun _ => h.Kept (o.writesSession = false) := by
  cases o with
  | issue i => exact issue_kept underway
  | rasterEncR0 | rasterDecR0 =>
    refine (of_readR0 underway).andThen ?_
    rintro _ _ - ⟨-, rfl⟩
    exact issue_kept underway

theorem ops_kept (l : List HostOp) (underway : h.Underway takes) :
    RunEnds takes (Run.ops l h) fun _ => h.Kept (∀ o ∈ l, o.writesSession = false) :=
  each (inv := fun _ => h.Kept (∀ o ∈ l, o.writesSession = false)) (k := 0)
    (fun o mem _ _ going kept => (op_kept o going).mono fun _ _ next =>
      kept.trans ⟨next.sunk, fun quiet => next.session (quiet o mem)⟩)
    underway ⟨rfl, fun _ => rfl⟩

end RunEnds

/-! ## The encode run (R262) -/

open WorkEnds in
/-- `CHUNK.DERIVE` answers in `R0` the `TFRAMES` that it writes (R208). -/
theorem exec_chunkDerive_completed {s u : State} {d : ResponseData} (unhalted : s.halt = false)
    (completes : exec .chunkDerive s = .next (u.completed d)) : ∃ tf, u.srf.tframes = some tf ∧ u.r0 = some tf := by
  rcases (runCommand_next _ _ _).mp completes with ⟨halted, -⟩ | ⟨-, t, e, work, same⟩ | ⟨-, c, -, same⟩
  · simp [unhalted] at halted
  · have srf : (u.completed d).srf = (t.completed e).srf := congrArg State.srf same
    have r0 : (u.completed d).r0 = (t.completed e).r0 := congrArg State.r0 same
    suffices ∃ tf, t.srf.tframes = some tf ∧ t.r0 = some tf from srf ▸ r0 ▸ this
    obtain ⟨work, -⟩ := (silent_ok _ _ _).mp work
    refine WorkEnds.completes (post := fun t => ∃ tf, t.srf.tframes = some tf ∧ t.r0 = some tf) (unsealed.bind fun _ _ => ?_) t work
    iterate 8 refine reads.bind fun _ _ => ?_
    exact fitsWord.bind fun tf _ => fitsWord.bind fun _ _ => done ⟨tf, rfl, rfl⟩
  · simpa using congrArg State.response same

namespace RunEnds

variable {job : EncodeJob} {h : HostSide}

/-- The sink takes one frame, or fails with all the frames that it takes. -/
theorem of_sinkFrame (underway : h.Underway job.sinkTakes) :
    RunEnds job.sinkTakes (Run.sinkFrame job h) fun _ h' => h'.core = h.core ∧ h'.sunk.length = h.sunk.length + 1 := by
  unfold Run.sinkFrame
  split
  next transfer _ =>
    split
    next never => exact goesOn ⟨underway.unhalted, by simp [never]⟩ ⟨rfl, List.length_append⟩
    next n takes =>
      split
      next room =>
        have fits : ∀ m, job.sinkTakes = some m → (h.sunk ++ [transfer]).length ≤ m := by simpa [takes] using room
        exact goesOn ⟨underway.unhalted, fits⟩ ⟨rfl, List.length_append⟩
      next noRoom =>
        have full : h.sunk.length = n := Nat.le_antisymm (underway.sunkFits n takes) (Nat.not_lt.mp noRoom)
        exact stops ⟨nofun, fun _ => underway.unhalted, underway.sunkFits, fun _ m hm => Option.some.inj (full ▸ takes.symm.trans hm)⟩
  next => exact stops (underway.abortedBy nofun nofun)

/-- Commands that make a frame without a write of the session, and the frame sunk. -/
theorem ops_sinkFrame {l : List HostOp} (quiet : ∀ o ∈ l, o.writesSession = false) (underway : h.Underway job.sinkTakes) :
    RunEnds job.sinkTakes ((Run.ops l).andThen (fun _ => Run.sinkFrame job) h) fun _ h' =>
      h'.core.srf = h.core.srf ∧ h'.sunk.length = h.sunk.length + 1 := by
  refine (ops_kept l underway).andThen fun _ m going kept => (of_sinkFrame going).mono ?_
  rintro _ h' ⟨core, sunk⟩
  exact ⟨core ▸ kept.session quiet, by rw [sunk, kept.sunk]⟩

/-- HeaderEmitted and Streaming sink `tf + 1` frames, and write no session field. -/
theorem of_encodeFrames (file : Bytes) (bpf tf : Nat) (underway : h.Underway job.sinkTakes) :
    RunEnds job.sinkTakes (encodeFrames job file bpf tf h) fun _ h' =>
      h'.core.srf = h.core.srf ∧ h'.sunk.length = h.sunk.length + (tf + 1) := by
  have quietHeader : ∀ o ∈ pseudoHdrframeEnc, o.writesSession = false := by decide
  have quietFrame (i : Nat) : ∀ o ∈ pseudoFrameEnc job.mode job.edge (chunkOf file bpf i), o.writesSession = false := by
    simp [pseudoFrameEnc, pseudoBytes2page, loadYB, HostOp.writesSession, writesSession]
  refine (ops_sinkFrame quietHeader underway).andThen fun _ m going emitted =>
    (each (inv := fun k m => m.core.srf = h.core.srf ∧ m.sunk.length = h.sunk.length + k) (k := 1) ?_ going emitted).mono ?_
  · rintro i - k n streaming ⟨session, sunk⟩
    refine (ops_sinkFrame (quietFrame i) streaming).mono ?_
    rintro _ h' ⟨session', sunk'⟩
    exact ⟨session'.trans session, by rw [sunk', sunk, Nat.add_assoc]⟩
  · rintro _ h' ⟨session, sunk⟩
    exact ⟨session, by rw [sunk, List.length_range, Nat.add_comm 1]⟩

/-- The number of frames streamed is the `TFRAMES` that `CHUNK.DERIVE` has answered. -/
theorem of_encodeOpened (file : Bytes) (underway : h.Underway job.sinkTakes) :
    RunEnds job.sinkTakes (encodeOpened job file h) fun _ h' =>
      ∃ tf, h'.core.srf.tframes = some tf ∧ h'.sunk.length = h.sunk.length + (tf + 1) := by
  refine (ops_kept _ underway).andThen fun _ m initialized kept => (of_readR0 initialized).andThen ?_
  rintro bpf _ - ⟨-, rfl⟩
  refine (of_issue initialized).andThen ?_
  rintro _ _ derived ⟨u, d, completes, rfl⟩
  obtain ⟨tf, tframes, r0⟩ := exec_chunkDerive_completed initialized.unhalted completes
  refine (of_readR0 derived).andThen ?_
  rintro v _ - ⟨answered, rfl⟩
  obtain rfl : tf = v := Option.some.inj (r0.symm.trans answered)
  refine (of_encodeFrames file bpf tf derived).mono ?_
  rintro _ h' ⟨session, sunk⟩
  exact ⟨tf, session ▸ tframes, by rw [sunk, kept.sunk]⟩

theorem of_encodeRun {s : State} (unhalted : s.halt = false) :
    RunEnds job.sinkTakes (encodeRun job s) fun _ h' =>
      ∃ tf, h'.core.srf.tframes = some tf ∧ h'.sunk.length = tf + 1 := by
  have underway : (HostSide.start s).Underway job.sinkTakes := .start unhalted
  unfold encodeRun
  split
  next file _ => simpa [HostSide.start] using of_encodeOpened file underway
  next => exact stops (underway.abortedBy nofun nofun)

end RunEnds

/-! ## The decode run (R266) -/

namespace RunEnds

variable {job : DecodeJob} {frames : List Bytes} {takes : Option Nat} {h : HostSide}

theorem of_fetch (k : Nat) (underway : h.Underway takes) : RunEnds takes (Run.fetch frames k h) fun _ _ => True := by
  unfold Run.fetch
  split
  · exact goesOn underway trivial
  · exact stops (underway.abortedBy nofun nofun)

theorem of_getScalar (f : Nat) (underway : h.Underway takes) : RunEnds takes (Run.getScalar f h) fun _ _ => True :=
  (of_issue underway).andThen fun _ _ going _ => (of_readR0 going).mono fun _ _ _ => trivial

theorem of_getString (f : Nat) (underway : h.Underway takes) : RunEnds takes (Run.getString f h) fun _ _ => True :=
  (ops_kept _ underway).andThen fun _ _ going _ => of_readBytes going

theorem of_decodeHeader (underway : h.Underway takes) : RunEnds takes (decodeHeader job frames h) fun _ _ => True :=
  (ops_kept _ underway).andThen fun _ _ going _ => (of_fetch 0 going).andThen fun _ _ going _ =>
    (ops_kept _ going).mono fun _ _ _ => trivial

theorem of_decodeSession (underway : h.Underway takes) : RunEnds takes (decodeSession h) fun _ _ => True :=
  (of_getScalar 0 underway).andThen fun _ _ going _ => (of_getScalar 1 going).andThen fun _ _ going _ =>
    (of_getScalar 10 going).andThen fun _ _ going _ => (of_getString 6 going).andThen fun _ _ going _ =>
      goesOn { going with } trivial

theorem of_reconstruct (m e i : Nat) (underway : h.Underway takes) : RunEnds takes (reconstruct job frames m e i h) fun _ _ => True :=
  (of_fetch (i + 1) underway).andThen fun _ _ going _ => (ops_kept _ going).andThen fun _ _ going _ =>
    (of_readR0 going).andThen fun _ _ going _ => (of_readBytes going).andThen fun _ _ going _ => goesOn { going with } trivial

theorem of_verify (underway : h.Underway takes) : RunEnds takes (verify h) fun _ _ => True :=
  (of_getString 5 underway).andThen fun _ _ going _ => goesOn going trivial

theorem of_decodeOpened (order : Nat → List Nat) (underway : h.Underway takes) :
    RunEnds takes (decodeOpened job order frames h) fun _ _ => True :=
  (of_decodeHeader underway).andThen fun _ _ going _ => (of_decodeSession going).andThen fun (m, e, _) _ going _ =>
    (each (inv := fun _ _ => True) (k := 0) (fun i _ _ _ going _ => of_reconstruct m e i going) going trivial).andThen
      fun _ _ going _ => of_verify going

theorem of_decodeRun (order : Nat → List Nat) {s : State} (unhalted : s.halt = false) :
    RunEnds takes (decodeRun job order s) fun _ _ => True := by
  have underway : (HostSide.start s).Underway takes := .start unhalted
  unfold decodeRun
  split
  · exact of_decodeOpened order underway
  · exact stops (underway.abortedBy nofun nofun)

end RunEnds

/-! ## The ends of both runs (R276, R312) -/

/-- Settles O56, from how each run ends; a job whose input does not open issues no command. -/
theorem runsEndAsTheSpecSays : Obligations.RunsEndAsTheSpecSays := by
  intro s unhalted
  refine ⟨fun job => ?_, fun job order => ?_⟩
  · have ends := RunEnds.of_encodeRun (job := job) unhalted
    refine ⟨fun done => ?_, fun c fault => (ends.aborted _ fault).faulted c rfl, fun a abort => (ends.aborted a abort).unhalted,
      fun n takes => ⟨ends.sunkFits n takes, fun failed => (ends.aborted _ failed).sinkFull rfl n takes⟩, fun unopened => ?_⟩
    · obtain ⟨underway, count⟩ := ends.done () done
      exact ⟨underway.unhalted, count⟩
    · rw [encodeRun, unopened]
      exact ⟨rfl, rfl⟩
  · have ends := RunEnds.of_decodeRun (job := job) (takes := none) order unhalted
    refine ⟨fun v done => (ends.done v done).1.unhalted, fun c fault => (ends.aborted _ fault).faulted c rfl,
      fun a abort => (ends.aborted a abort).unhalted, fun unopened => ?_⟩
    rw [decodeRun, unopened]
    exact ⟨rfl, rfl⟩

end Sys2Proof.Machine
end

section
/-! PROOFS. The statements of spec file 60_exceptions.md. What an unhalted CORE makes of a command (R300) and what a halted one makes of an
event (R302) follow from what a command and a step can do at all; the cause codes are the positions in R293's table. -/

namespace Sys2Proof.Machine

/-! ## A command on an unhalted CORE (R300) -/

/-- Every command answers a next state, for `runCommand` does. -/
theorem exec_total (i : Instr) (s : State) : ∃ t, exec i s = .next t := by
  obtain ⟨w, hw⟩ := exec_eq_runCommand i s
  rw [hw]
  exact runCommand_total s w

/-- Settles O12: of the ends of a command an unhalted CORE has two, and the work of a completed one writes neither `HALT` nor `FAULT`. -/
theorem commandsCompleteOrFaultPrecisely : Obligations.CommandsCompleteOrFaultPrecisely := by
  intro i s unhalted
  obtain ⟨t, ht⟩ := exec_total i s
  rcases exec_ends ht with ⟨halted, -⟩ | ⟨-, u, d, completes, rfl⟩ | ⟨-, c, isFault, rfl⟩
  · simp [unhalted] at halted
  · have written := completes.onlyRegistersWritten
    exact .inl ⟨u, d, ht, written.halt.trans unhalted, written.fault, written.inbox⟩
  · exact .inr ⟨c, isFault, ht⟩

/-! ## A halted CORE (R302, R304) -/

theorem exec_of_halted (i : Instr) {s : State} (halted : s.halt = true) : exec i s = .next s.refuseHalted := by
  obtain ⟨w, hw⟩ := exec_eq_runCommand i s
  exact hw.trans (runCommand_halted s w halted)

/-- The refusal comes before the decoder (R296), so the packet may be any bit sequence. -/
theorem serveCommand_of_halted (packet : Bits) {s : State} (halted : s.halt = true) :
    serveCommand packet s = .next s.refuseHalted := by
  simp [serveCommand, halted]

theorem step_of_command {s : State} {packet : Bits} {rest : List HostEvent} (pending : s.inbox = .command packet :: rest) :
    step s = serveCommand packet (s.setInbox rest) := by
  rw [step, pending]
  rfl

/-- Without a reset a halted CORE idles or refuses a packet. -/
theorem step_of_halted {s t : State} (halted : s.halt = true) (ht : step s = .next t) (noReset : ∀ rest, s.inbox ≠ .reset :: rest) :
    t = s ∨ ∃ rest, t = (s.setInbox rest).refuseHalted := by
  rcases step_next ht with ⟨-, idle⟩ | ⟨event, rest, pending, ⟨packet, -, served⟩ | ⟨rfl, -⟩⟩
  · exact .inl idle
  · rw [serveCommand_of_halted packet (s := s.setInbox rest) halted] at served
    injection served with refused
    exact .inr ⟨rest, refused.symm⟩
  · exact absurd pending (noReset rest)

/-- Settles O7: the port and `exec` end in the same refusal. -/
theorem haltedCoreRefusesEverything : Obligations.HaltedCoreRefusesEverything :=
  ⟨fun s p rest halted pending => (step_of_command pending).trans (serveCommand_of_halted p (s := s.setInbox rest) halted),
    fun i _ halted => exec_of_halted i halted⟩

/-- Settles O15: idling changes nothing, and a refusal changes only the port. -/
theorem onlyResetLeavesHalt : Obligations.OnlyResetLeavesHalt := by
  intro s t halted ht noReset
  rcases step_of_halted halted ht noReset with rfl | ⟨rest, rfl⟩
  · exact ⟨halted, rfl, rfl, rfl, rfl, rfl, rfl, rfl⟩
  · exact ⟨halted, rfl, rfl, rfl, rfl, rfl, rfl, rfl⟩

/-! ## The cause codes (R293) -/

/-- No fault (R28), then the rows of R293's table from its first to its last. -/
def causesInOrder : List Cause :=
  [.noFault, .illegalCommand, .operandRange, .sessionFieldUnset, .bufferInvalid, .sessionSealed, .widthTooSmall, .notBinary,
    .bitCountNot8, .lengthNotMultipleOf8, .filenameTooLong, .checksumLength, .unrecognizedVideoType, .unsupportedMode,
    .incompatibleDimensions, .capacityExceeded, .headerLengthMismatch, .frameLengthMismatch, .trimUnderflow, .resultOverflow]

theorem causesInOrder_getElem?_code (c : Cause) : causesInOrder[c.code]? = some c := by
  cases c <;> rfl

theorem map_code_causesInOrder : causesInOrder.map Cause.code = List.range 20 := rfl

theorem Cause.code_injective {c c' : Cause} (same : c.code = c'.code) : c = c' :=
  Option.some.inj <| by rw [← causesInOrder_getElem?_code c, same, causesInOrder_getElem?_code]

theorem Cause.exists_code_eq_iff {n : Nat} : (∃ c : Cause, c.code = n) ↔ n ≤ 19 :=
  calc (∃ c : Cause, c.code = n)
    _ ↔ ∃ c ∈ causesInOrder, c.code = n :=
      exists_congr fun c => (and_iff_right (List.mem_of_getElem? (causesInOrder_getElem?_code c))).symm
    _ ↔ n ∈ List.range 20 := by rw [← map_code_causesInOrder, List.mem_map]
    _ ↔ n ≤ 19 := List.mem_range.trans Nat.lt_succ_iff

/-- Settles O17: a cause is found in the table at its code, and the codes in the table's order are the numbers below 20. -/
theorem causeCodes : Obligations.CauseCodes := by
  refine ⟨fun _ _ => Cause.code_injective, fun _ => Cause.exists_code_eq_iff.symm, ?_⟩
  and_intros <;> rfl

end Sys2Proof.Machine
end

section
/-! PROOFS. The statement of spec file 70_reset_and_hazards.md: a step that finds reset pending serves it, without a look at `HALT`. -/

namespace Sys2Proof.Machine

/-! ## The reset event (R330) -/

theorem step_of_reset {s : State} {rest : List HostEvent} (pending : s.inbox = .reset :: rest) :
    step s = .next (s.setInbox rest).applyReset := by
  rw [step, pending]
  rfl

/-- The event served is gone from the inbox before reset keeps what is left there. -/
theorem applyReset_setInbox (s : State) (rest : List HostEvent) :
    (s.setInbox rest).applyReset = { State.resetWith s.params with inbox := rest } := rfl

/-- Settles O8: the step applies reset to the state without the event, and reset keeps only its parameters and inbox. -/
theorem resetEventRestoresReset : Obligations.ResetEventRestoresReset := by
  intro s rest pending
  calc step s
    _ = .next (s.setInbox rest).applyReset := step_of_reset pending
    _ = .next { State.resetWith s.params with inbox := rest } := congrArg _ (applyReset_setInbox s rest)

end Sys2Proof.Machine
end
